-- ==== Sys2Proof/Word.lean ====
section
/-! DEFINITION. The words and plain data every file shares: a byte, a millisecond counter value, a
vector of three components, and the sparse table that holds numbered records. -/

namespace Sys2Proof

/-- One byte of a port transaction or of a field link frame. -/
abbrev Byte := BitVec 8

/-- A value of the free-running 32-bit millisecond counter (00_scope "Time", R139). -/
abbrev Millis := BitVec 32

/-- Numbered records held sparsely: a slot that is not listed holds the record the table's reader
names as default. The canonical form is `Tab.wf` of Machine/Table.lean. -/
abbrev Tab (α : Type) := List (Nat × α)

end Sys2Proof

namespace Sys2Proof.Machine

/-- Three coordinates in centimetres (R1) or three components in normal units (R2). -/
structure Vec3 where
  x : Int
  y : Int
  z : Int
  deriving DecidableEq, Repr

/-- The stow normal (R7). -/
def stowNormal : Vec3 := ⟨0, 0, 32767⟩

end Sys2Proof.Machine
end

