-- ==== Sys2Proof/Config.lean ====
section
/-! DEFINITION. The free values: what the spec leaves open about a value the part shows. -/

namespace Sys2Proof

/-- DESIGN CHOICE (log 7), safe. A byte of a readout object whose content the spec does not state: the
drop, kind, seq and rate of a frame that is not fixed yet (R97, R113, R201). It has no body: a claim
holds whatever it is. The first argument is the state's count of draws, the second the offset. -/
opaque Config.freeByte : Nat → Nat → Byte

/-- DESIGN CHOICE (log 20), safe. The level of a port's data output while its select line is low and the port
stays DESELECTED after a reset: R173 says that the output is driven then and not what it carries. It has no
body. The arguments are the state's count of draws and the millisecond counter. -/
opaque Config.freeLevel : Nat → Nat → Bool

end Sys2Proof
end

