-- ==== Sys2Proof/Syntax.lean ====
section
/-! DEFINITION. The commands of the block: one constructor per row of spec/opcode_table.json. Operands
of a port command have the widths they have on the wire (R180 to R182, R188). -/

namespace Sys2Proof

/-- The two ports: each has one master (R173, R187). -/
inductive Port where
  | dispatch
  | protection
  deriving DecidableEq, Repr

/-- One command or event of the block. -/
inductive Instr where
  /-- WRITE_HELIOSTAT (R32, R33). -/
  | writeHeliostat (index : BitVec 16) (segment drop : Byte) (x y z : BitVec 32) (area refl : BitVec 16)
  /-- ASSIGN (R35 to R37); point 255 is NONE. -/
  | assign (index : BitVec 16) (point : Byte)
  /-- PARK (R38). -/
  | park (index : BitVec 16)
  /-- EXCLUDE (R39). -/
  | exclude (index : BitVec 16)
  /-- INCLUDE (R40). -/
  | includeHel (index : BitVec 16)
  /-- CLEAR_FAULT (R41). -/
  | clearFault (index : BitVec 16)
  /-- RELEASE_STRANDED (R42). -/
  | releaseStranded (index : BitVec 16)
  /-- RETIRE (R34). -/
  | retire (index : BitVec 16)
  /-- READ_HELIOSTAT (R183, R185). -/
  | readHeliostat (first : BitVec 16)
  /-- WRITE_AIMPOINT (R49, R50); alternate 255 is NONE. -/
  | writeAimpoint (point valid : Byte) (x y z : BitVec 32) (zone alternate : Byte)
  /-- SET_ZONE (R53, R54); standby 255 is NONE. -/
  | setZone (zone : Byte) (limit : BitVec 16) (standby : Byte)
  /-- READ_ZONE on either port (R183, R189). -/
  | readZone (port : Port) (first : Byte)
  /-- READ_JOIN_LIST (R184). -/
  | readJoinList (zone : Byte)
  /-- READ_QUEUE (R184). -/
  | readQueue (zone : Byte)
  /-- SET_SUN (R4, R5). -/
  | setSun (sx sy sz dni atc : BitVec 16)
  /-- SET_EPOCH (R79). -/
  | setEpoch (period : BitVec 16)
  /-- EPOCH_NOW (R81). -/
  | epochNow
  /-- SET_STAGGER (R93). -/
  | setStagger (stepMs dmax seed : Byte)
  /-- SET_LINK (R118, R119). -/
  | setLink (segment enable rate timeout quiet missLimit devLimit : Byte) (ptol : BitVec 16)
  /-- RESTART_SEGMENT (R138). -/
  | restartSegment (segment : Byte)
  /-- POST_MAINT (R128); `ops` is the six action operand bytes, the first the most significant. -/
  | postMaint (segment : Byte) (index : BitVec 16) (action : Byte) (ops : BitVec 48)
  /-- READ_SEGMENT (R117, R183). -/
  | readSegment (first : Byte)
  /-- READ_MAINT (R127, R183). -/
  | readMaint (segment : Byte)
  /-- SET_SHADE (R152, R153); `maps` and `depths` are eight bytes each, the first the most significant. -/
  | setShade (maps : BitVec 64) (shf : BitVec 16) (qual shadeMax : Byte) (depths : BitVec 64)
  /-- READ_CAPTURE (R145). -/
  | readCapture (sensor : Byte)
  /-- STOW (R157). -/
  | stow
  /-- UNSTOW (R157). -/
  | unstow
  /-- SET_FORM (R185). -/
  | setForm (form : Byte)
  /-- READ_STATUS on either port (R186, R189). -/
  | readStatus (port : Port)
  /-- SET_MASK on either port (R194): three operand bytes on the dispatch port, one on the protection port. -/
  | setMask (port : Port) (events : BitVec 24)
  /-- ACK_EVENTS on either port (R195): three operand bytes on the dispatch port, one on the protection port. -/
  | ackEvents (port : Port) (events : BitVec 24)
  /-- SET_PROTECT_LIMIT (R53). -/
  | setProtectLimit (zone : Byte) (limit : BitVec 16)
  /-- HOLD (R55). -/
  | hold (zone : Byte)
  /-- UNHOLD (R55). -/
  | unhold (zone : Byte)
  /-- SET_RAMP (R56). -/
  | setRamp (zone value : Byte)
  /-- FIELD_DEFOCUS (R161). -/
  | fieldDefocus
  /-- FIELD_RELEASE (R166). -/
  | fieldRelease
  /-- SET_DEADLINE (R164). -/
  | setDeadline (value : BitVec 16)
  /-- SUPERVISE (R167). -/
  | supervise (period : Byte)
  /-- UNKNOWN_COMMAND (R174): a command byte that names no command of the port. -/
  | unknownCommand (port : Port) (code : Byte)
  /-- TRANSACTION_DISCARD (R176): a rise of the select line before the delivery edge. -/
  | transactionDiscard (port : Port)
  /-- READ_OBJECT_FIX (R183): the edge that follows the last bit of the object being shifted out. -/
  | readObjectFix (port : Port)
  /-- PIN_RESET (R21, R48, R52, R78, R82, R93, R117, R139, R155, R173, R198). -/
  | pinReset
  /-- EPOCH_EXPIRY (R80). -/
  | epochExpiry
  /-- SWEEP_VISIT (R83, R84). -/
  | sweepVisit
  /-- SWEEP_COMPLETE (R87); bit k of `accrualFirst`: segment k's miss accrual (R133) is taken before the commit. -/
  | sweepComplete (accrualFirst : Byte)
  /-- SOLVE (R89 to R92): the arbiter takes the next pending request, computes and answers the segment. Where
  the answer of a request taken before is out, it is handed over. -/
  | solve
  /-- SOLVE with its answer still to come: the arbiter takes the next pending request and writes the record, and
  what comes before the next `solve` falls between the two (R90, R92; log 16). -/
  | solveBegun
  /-- RELEASE_TIMER_EXPIRY of a segment (R96). -/
  | releaseTimerExpiry (segment : Fin 8)
  /-- NEXT_ITEM_TAKEN at a segment's frame boundary (R121). -/
  | nextItemTaken (segment : Fin 8)
  /-- FRAME_SENT (R102): the end of the last stop bit. -/
  | frameSent (segment : Fin 8)
  /-- RECEPTION_COMPLETE (R105): the fourteen bytes as they arrived on the line. -/
  | receptionComplete (segment : Fin 8) (bytes : List Byte)
  /-- RECEPTION_BROKEN (R104). -/
  | receptionBroken (segment : Fin 8)
  /-- REPLY_TIMEOUT (R108). -/
  | replyTimeout (segment : Fin 8)
  /-- SEGMENT_LOCKED (R131). -/
  | segmentLocked (segment : Fin 8)
  /-- QUIET_EXPIRY (R132). -/
  | quietExpiry (segment : Fin 8)
  /-- SHADOW_SENSOR_CHANGE (R140): a sample of the sensor, `true` for a high level. -/
  | shadowSensorChange (sensor : Fin 8) (level : Bool)
  /-- SHADOW_ONSET (R141). -/
  | shadowOnset (sensor : Fin 8)
  /-- SHADOW_END (R142). -/
  | shadowEnd (sensor : Fin 8)
  /-- SENSOR_STUCK (R147). -/
  | sensorStuck (sensor : Fin 8)
  /-- STOW_LINE_CHANGE (R156): a sample of STOWREQ_N, `true` for a high level. -/
  | stowLineChange (level : Bool)
  /-- STOW_LINE_QUALIFIED (R156). -/
  | stowLineQualified
  /-- DEADLINE_EXPIRY (R165). -/
  | deadlineExpiry
  /-- SUPERVISION_EXPIRED (R169). -/
  | supervisionExpired
  /-- RECEPTION_BEGINS (R104): the byte as it arrived, and the microseconds of the remaining time spent hunting
  up to its start bit that no step of the millisecond counter has taken from it (log 19). -/
  | receptionBegins (segment : Fin 8) (marker : Byte) (huntedUs : Nat)
  /-- LINE_FALLS_IDLE (R132). -/
  | lineFallsIdle (segment : Fin 8)
  /-- RX_LINE_ACTIVE (R131, R132). -/
  | rxLineActive (segment : Fin 8)
  /-- TRANSACTION_BEGIN (R174): a falling edge of the port's select line. -/
  | transactionBegin (port : Port)
  /-- TRANSACTION_END (R176): a rise of the port's select line after the delivery edge. -/
  | transactionEnd (port : Port)
  deriving DecidableEq, Repr

end Sys2Proof
end

