-- ==== Sys2Proof/Decode.lean ====
section
/-! DEFINITION. The bytes of a port transaction: command codes (R200), operand orders and lengths
(R180, R181, R182, R188), the reading of a transaction's bytes as a command, and its inverse. The
opcode table gives no row any bits, so no table word spells a command. -/

namespace Sys2Proof

/-- High byte first (11_frame_and_record_layouts, conventions). -/
def bytes16 (w : BitVec 16) : List Byte := [w.extractLsb' 8 8, w.extractLsb' 0 8]

/-- High byte first. -/
def bytes24 (w : BitVec 24) : List Byte := [w.extractLsb' 16 8, w.extractLsb' 8 8, w.extractLsb' 0 8]

/-- High byte first. -/
def bytes32 (w : BitVec 32) : List Byte :=
  [w.extractLsb' 24 8, w.extractLsb' 16 8, w.extractLsb' 8 8, w.extractLsb' 0 8]

/-- High byte first. -/
def bytes48 (w : BitVec 48) : List Byte :=
  [w.extractLsb' 40 8, w.extractLsb' 32 8, w.extractLsb' 24 8, w.extractLsb' 16 8, w.extractLsb' 8 8, w.extractLsb' 0 8]

/-- High byte first. -/
def bytes64 (w : BitVec 64) : List Byte :=
  [w.extractLsb' 56 8, w.extractLsb' 48 8, w.extractLsb' 40 8, w.extractLsb' 32 8,
   w.extractLsb' 24 8, w.extractLsb' 16 8, w.extractLsb' 8 8, w.extractLsb' 0 8]

/-- A command as it travels on a port: the port, the command byte and the operand bytes. -/
structure WireCmd where
  port : Port
  code : Byte
  operands : List Byte
  deriving DecidableEq, Repr

/-- The command byte and operand bytes of a port command (R180 to R182, R188, R200). A row that is no
port command, or that is the rise or fall of a select line, has none. -/
def wire : Instr → Option WireCmd
  | .readZone p z => some ⟨p, 0x01, [z]⟩
  | .readStatus p => some ⟨p, 0x02, []⟩
  | .setMask .dispatch m => some ⟨.dispatch, 0x03, bytes24 m⟩
  | .setMask .protection m => some ⟨.protection, 0x03, [m.extractLsb' 0 8]⟩
  | .ackEvents .dispatch m => some ⟨.dispatch, 0x04, bytes24 m⟩
  | .ackEvents .protection m => some ⟨.protection, 0x04, [m.extractLsb' 0 8]⟩
  | .writeHeliostat i sg dr x y z a r =>
      some ⟨.dispatch, 0x10, bytes16 i ++ sg :: dr :: (bytes32 x ++ bytes32 y ++ bytes32 z ++ bytes16 a ++ bytes16 r)⟩
  | .assign i p => some ⟨.dispatch, 0x11, bytes16 i ++ [p]⟩
  | .park i => some ⟨.dispatch, 0x12, bytes16 i⟩
  | .exclude i => some ⟨.dispatch, 0x13, bytes16 i⟩
  | .includeHel i => some ⟨.dispatch, 0x14, bytes16 i⟩
  | .clearFault i => some ⟨.dispatch, 0x15, bytes16 i⟩
  | .releaseStranded i => some ⟨.dispatch, 0x16, bytes16 i⟩
  | .retire i => some ⟨.dispatch, 0x17, bytes16 i⟩
  | .readHeliostat i => some ⟨.dispatch, 0x18, bytes16 i⟩
  | .writeAimpoint p v x y z zn a =>
      some ⟨.dispatch, 0x20, p :: v :: (bytes32 x ++ bytes32 y ++ bytes32 z ++ [zn, a])⟩
  | .setZone z l st => some ⟨.dispatch, 0x28, z :: (bytes16 l ++ [st])⟩
  | .readJoinList z => some ⟨.dispatch, 0x29, [z]⟩
  | .readQueue z => some ⟨.dispatch, 0x2A, [z]⟩
  | .setSun sx sy sz d a =>
      some ⟨.dispatch, 0x30, bytes16 sx ++ bytes16 sy ++ bytes16 sz ++ bytes16 d ++ bytes16 a⟩
  | .setEpoch p => some ⟨.dispatch, 0x31, bytes16 p⟩
  | .epochNow => some ⟨.dispatch, 0x32, []⟩
  | .setStagger st d sd => some ⟨.dispatch, 0x33, [st, d, sd]⟩
  | .setLink sg en rt tm q ml dl pt => some ⟨.dispatch, 0x40, [sg, en, rt, tm, q, ml, dl] ++ bytes16 pt⟩
  | .restartSegment sg => some ⟨.dispatch, 0x41, [sg]⟩
  | .postMaint sg i a o => some ⟨.dispatch, 0x42, sg :: (bytes16 i ++ a :: bytes48 o)⟩
  | .readSegment sg => some ⟨.dispatch, 0x43, [sg]⟩
  | .readMaint sg => some ⟨.dispatch, 0x44, [sg]⟩
  | .setShade m shf q sm d => some ⟨.dispatch, 0x50, bytes64 m ++ bytes16 shf ++ q :: sm :: bytes64 d⟩
  | .readCapture k => some ⟨.dispatch, 0x51, [k]⟩
  | .stow => some ⟨.dispatch, 0x60, []⟩
  | .unstow => some ⟨.dispatch, 0x61, []⟩
  | .setForm f => some ⟨.dispatch, 0x70, [f]⟩
  | .setProtectLimit z l => some ⟨.protection, 0x80, z :: bytes16 l⟩
  | .hold z => some ⟨.protection, 0x81, [z]⟩
  | .unhold z => some ⟨.protection, 0x82, [z]⟩
  | .setRamp z v => some ⟨.protection, 0x83, [z, v]⟩
  | .fieldDefocus => some ⟨.protection, 0x84, []⟩
  | .fieldRelease => some ⟨.protection, 0x85, []⟩
  | .setDeadline v => some ⟨.protection, 0x86, bytes16 v⟩
  | .supervise p => some ⟨.protection, 0x87, [p]⟩
  | .unknownCommand p c => some ⟨p, c, []⟩
  | .transactionDiscard _ | .readObjectFix _ | .pinReset | .epochExpiry | .sweepVisit | .sweepComplete _
  | .solve | .solveBegun | .releaseTimerExpiry _ | .nextItemTaken _ | .frameSent _ | .receptionComplete _ _
  | .receptionBroken _ | .replyTimeout _ | .segmentLocked _ | .quietExpiry _ | .shadowSensorChange _ _
  | .shadowOnset _ | .shadowEnd _ | .sensorStuck _ | .stowLineChange _ | .stowLineQualified
  | .deadlineExpiry | .supervisionExpired | .receptionBegins _ _ _ | .lineFallsIdle _ | .rxLineActive _
  | .transactionBegin _ | .transactionEnd _ => none

/-- The operand length of each command of the dispatch port (R180, R181, R182, R200); `none` for a code
that names no command of that port. -/
def dispatchLength (code : Nat) : Option Nat :=
  match code with
  | 0x01 => some 1 | 0x02 => some 0 | 0x03 => some 3 | 0x04 => some 3
  | 0x10 => some 20 | 0x11 => some 3 | 0x12 => some 2 | 0x13 => some 2 | 0x14 => some 2
  | 0x15 => some 2 | 0x16 => some 2 | 0x17 => some 2 | 0x18 => some 2 | 0x20 => some 16
  | 0x28 => some 4 | 0x29 => some 1 | 0x2A => some 1 | 0x30 => some 10 | 0x31 => some 2
  | 0x32 => some 0 | 0x33 => some 3 | 0x40 => some 9 | 0x41 => some 1 | 0x42 => some 10
  | 0x43 => some 1 | 0x44 => some 1 | 0x50 => some 20 | 0x51 => some 1 | 0x60 => some 0
  | 0x61 => some 0 | 0x70 => some 1
  | _ => none

/-- The operand length of each command of the protection port (R188, R200). -/
def protectionLength (code : Nat) : Option Nat :=
  match code with
  | 0x01 => some 1 | 0x02 => some 0 | 0x03 => some 1 | 0x04 => some 1
  | 0x80 => some 3 | 0x81 => some 1 | 0x82 => some 1 | 0x83 => some 2 | 0x84 => some 0
  | 0x85 => some 0 | 0x86 => some 2 | 0x87 => some 1
  | _ => none

/-- The operand length a port expects after a command byte, or `none` where it answers UNKNOWN (R174). -/
def operandLength (p : Port) (code : Byte) : Option Nat :=
  match p with
  | .dispatch => dispatchLength code.toNat
  | .protection => protectionLength code.toNat

/-- Take one operand byte. -/
def u8 {β : Type} (k : Byte → List Byte → Option β) : List Byte → Option β
  | b :: r => k b r
  | [] => none

/-- Take a two-byte operand, high byte first. -/
def u16 {β : Type} (k : BitVec 16 → List Byte → Option β) : List Byte → Option β
  | a :: b :: r => k (a ++ b) r
  | _ => none

/-- Take a three-byte operand, high byte first. -/
def u24 {β : Type} (k : BitVec 24 → List Byte → Option β) : List Byte → Option β
  | a :: b :: c :: r => k (a ++ b ++ c) r
  | _ => none

/-- Take a four-byte operand, high byte first. -/
def u32 {β : Type} (k : BitVec 32 → List Byte → Option β) : List Byte → Option β
  | a :: b :: c :: d :: r => k (a ++ b ++ c ++ d) r
  | _ => none

/-- Take the six action operand bytes of POST_MAINT. -/
def u48 {β : Type} (k : BitVec 48 → List Byte → Option β) : List Byte → Option β
  | a :: b :: c :: d :: e :: f :: r => k (a ++ b ++ c ++ d ++ e ++ f) r
  | _ => none

/-- Take eight operand bytes. -/
def u64 {β : Type} (k : BitVec 64 → List Byte → Option β) : List Byte → Option β
  | a :: b :: c :: d :: e :: f :: g :: h :: r => k (a ++ b ++ c ++ d ++ e ++ f ++ g ++ h) r
  | _ => none

/-- All operand bytes have been taken. -/
def fin {β : Type} (v : β) : List Byte → Option β
  | [] => some v
  | _ :: _ => none

/-- The operands of a dispatch command (R180, R181, R182). -/
def decodeDispatch (code : Byte) (ops : List Byte) : Option Instr :=
  match code.toNat with
  | 0x01 => u8 (fun z => fin (.readZone .dispatch z)) ops
  | 0x02 => fin (.readStatus .dispatch) ops
  | 0x03 => u24 (fun m => fin (.setMask .dispatch m)) ops
  | 0x04 => u24 (fun m => fin (.ackEvents .dispatch m)) ops
  | 0x10 => u16 (fun i => u8 fun sg => u8 fun dr => u32 fun x => u32 fun y => u32 fun z => u16 fun a => u16 fun r =>
      fin (.writeHeliostat i sg dr x y z a r)) ops
  | 0x11 => u16 (fun i => u8 fun p => fin (.assign i p)) ops
  | 0x12 => u16 (fun i => fin (.park i)) ops
  | 0x13 => u16 (fun i => fin (.exclude i)) ops
  | 0x14 => u16 (fun i => fin (.includeHel i)) ops
  | 0x15 => u16 (fun i => fin (.clearFault i)) ops
  | 0x16 => u16 (fun i => fin (.releaseStranded i)) ops
  | 0x17 => u16 (fun i => fin (.retire i)) ops
  | 0x18 => u16 (fun i => fin (.readHeliostat i)) ops
  | 0x20 => u8 (fun p => u8 fun v => u32 fun x => u32 fun y => u32 fun z => u8 fun zn => u8 fun a =>
      fin (.writeAimpoint p v x y z zn a)) ops
  | 0x28 => u8 (fun z => u16 fun l => u8 fun st => fin (.setZone z l st)) ops
  | 0x29 => u8 (fun z => fin (.readJoinList z)) ops
  | 0x2A => u8 (fun z => fin (.readQueue z)) ops
  | 0x30 => u16 (fun sx => u16 fun sy => u16 fun sz => u16 fun d => u16 fun a => fin (.setSun sx sy sz d a)) ops
  | 0x31 => u16 (fun p => fin (.setEpoch p)) ops
  | 0x32 => fin .epochNow ops
  | 0x33 => u8 (fun st => u8 fun d => u8 fun sd => fin (.setStagger st d sd)) ops
  | 0x40 => u8 (fun sg => u8 fun en => u8 fun rt => u8 fun tm => u8 fun q => u8 fun ml => u8 fun dl => u16 fun pt =>
      fin (.setLink sg en rt tm q ml dl pt)) ops
  | 0x41 => u8 (fun sg => fin (.restartSegment sg)) ops
  | 0x42 => u8 (fun sg => u16 fun i => u8 fun a => u48 fun o => fin (.postMaint sg i a o)) ops
  | 0x43 => u8 (fun sg => fin (.readSegment sg)) ops
  | 0x44 => u8 (fun sg => fin (.readMaint sg)) ops
  | 0x50 => u64 (fun m => u16 fun shf => u8 fun q => u8 fun sm => u64 fun d => fin (.setShade m shf q sm d)) ops
  | 0x51 => u8 (fun k => fin (.readCapture k)) ops
  | 0x60 => fin .stow ops
  | 0x61 => fin .unstow ops
  | 0x70 => u8 (fun f => fin (.setForm f)) ops
  | _ => fin (.unknownCommand .dispatch code) ops

/-- The operands of a protection command (R188). -/
def decodeProtection (code : Byte) (ops : List Byte) : Option Instr :=
  match code.toNat with
  | 0x01 => u8 (fun z => fin (.readZone .protection z)) ops
  | 0x02 => fin (.readStatus .protection) ops
  | 0x03 => u8 (fun m => fin (.setMask .protection (m.setWidth 24))) ops
  | 0x04 => u8 (fun m => fin (.ackEvents .protection (m.setWidth 24))) ops
  | 0x80 => u8 (fun z => u16 fun l => fin (.setProtectLimit z l)) ops
  | 0x81 => u8 (fun z => fin (.hold z)) ops
  | 0x82 => u8 (fun z => fin (.unhold z)) ops
  | 0x83 => u8 (fun z => u8 fun v => fin (.setRamp z v)) ops
  | 0x84 => fin .fieldDefocus ops
  | 0x85 => fin .fieldRelease ops
  | 0x86 => u16 (fun v => fin (.setDeadline v)) ops
  | 0x87 => u8 (fun p => fin (.supervise p)) ops
  | _ => fin (.unknownCommand .protection code) ops

/-- The command a port takes from the command byte and the operand bytes of one transaction, the bytes
ending at the delivery edge (R174, R175); `none` while the bytes are not a whole command. -/
def decodeWire (p : Port) : List Byte → Option Instr
  | [] => none
  | code :: ops =>
    match p with
    | .dispatch => decodeDispatch code ops
    | .protection => decodeProtection code ops

/-- The command a word of the opcode table spells. No row of spec/opcode_table.json gives bits
("fields" is empty in all 68), so no word spells one. -/
def decodeTableWord (_nbits _w : Nat) : Option Instr := none

end Sys2Proof
end

