-- ==== Sys2Proof/Machine/State.lean ====
section
/-! DEFINITION. The state of the DN-2000 as plain data, and its value after pin reset. Numbered records
are sparse tables whose unlisted slots hold the record's reset value. -/

namespace Sys2Proof.Machine

/-- Heliostat states (section 2.2). -/
inductive HState where
  | absent | offline | stowed | queued | onTarget | standby | excluded | faulted
  deriving DecidableEq, Repr

/-- Motion reported by a drive (R24, R199). -/
inductive Motion where
  | none | moving | settled | stowed | halted
  deriving DecidableEq, Repr

/-- A target: STOW, or a point of the aim point table; 0..95 are receiver points, 96..111 standby points
(R16, R29, R48). -/
inductive Target where
  | stow
  | point (n : Nat)
  deriving DecidableEq, Repr

/-- The target tag: the target N_cmd was computed for, and its valid flag (R16). -/
structure Tag where
  target : Target
  valid : Bool
  deriving DecidableEq, Repr

/-- A stranded field that is present: the zone charged and the amount in W (R26, R47). -/
structure Stranded where
  zone : Nat
  amount : Nat
  deriving DecidableEq, Repr

/-- A heliostat record (section 2.1). -/
structure Hel where
  state : HState
  segment : Nat
  drop : Nat
  pos : Vec3
  area : Nat
  refl : Nat
  assignment : Option Nat
  onAlternate : Bool
  nCmd : Vec3
  tag : Tag
  nRep : Option Vec3
  motion : Motion
  fault : Nat
  pClear : Nat
  pValid : Bool
  pNew : Nat
  pNewValid : Bool
  mark : Bool
  seq : Nat
  miss : Nat
  dev : Nat
  stranded : Option Stranded
  departing : Bool
  departureZone : Option Nat
  trackingError : Bool
  geometry : Bool
  noSolution : Bool
  deriving DecidableEq, Repr

/-- The empty record (R21). -/
def Hel.empty : Hel where
  state := .absent
  segment := 0
  drop := 0
  pos := ⟨0, 0, 0⟩
  area := 0
  refl := 0
  assignment := none
  onAlternate := false
  nCmd := stowNormal
  tag := ⟨.stow, true⟩
  nRep := none
  motion := .none
  fault := 0
  pClear := 0
  pValid := false
  pNew := 0
  pNewValid := false
  mark := false
  seq := 0
  miss := 0
  dev := 0
  stranded := none
  departing := false
  departureZone := none
  trackingError := false
  geometry := false
  noSolution := false

/-- An aim point record (R48). A standby point uses `valid` and `pos` alone. -/
structure Point where
  valid : Bool
  pos : Vec3
  zone : Nat
  alternate : Option Nat
  inUse : Nat
  diverted : Nat
  altLoad : Nat
  deriving DecidableEq, Repr

/-- An aim point record after pin reset (R48). -/
def Point.reset : Point := ⟨false, ⟨0, 0, 0⟩, 0, none, 0, 0, 0⟩

/-- Zone states (R52). -/
inductive ZState where
  | normal | full | held | over
  deriving DecidableEq, Repr

/-- A zone record (R52). The effective limit and the committed flux are computed from these fields
(R53, R64) and not stored a second time. -/
structure Zone where
  dispatchLimit : Nat
  protectLimit : Nat
  hold : Bool
  rjMax : Nat
  standby : Option Nat
  stranded : Nat
  joinList : List Nat
  queue : List Nat
  pendingDepartures : Nat
  state : ZState
  deriving DecidableEq, Repr

/-- A zone record after pin reset (R52). -/
def Zone.reset : Zone := ⟨0, 0, false, 4, none, 0, [], [], 0, .normal⟩

/-- The sun source (R3), and the form of its snapshot (R6). -/
structure Sun where
  present : Bool
  s : Vec3
  dni : Nat
  atc : Nat
  deriving DecidableEq, Repr

/-- The sweep state of the ACU but for the snapshot (R82). -/
structure Sweep where
  inFlight : Bool
  remaining : List Nat
  lastVisited : Option Nat
  count : Nat
  deriving DecidableEq, Repr

/-- The Epoch Timer (R78). -/
structure Epoch where
  running : Bool
  period : Nat
  pendingPeriod : Option Nat
  countdown : Nat
  deriving DecidableEq, Repr

/-- The Release Stagger Generator (R93); a timer is stopped (`none`) or has milliseconds left. -/
structure Rsg where
  stepMs : Nat
  dmax : Nat
  reg : BitVec 8
  timers : Tab (Option Nat)
  deriving DecidableEq, Repr

/-- The part-wide link settings (R20, R45, R46). -/
structure LinkSettings where
  missLimit : Nat
  devLimit : Nat
  ptol : Nat
  deriving DecidableEq, Repr

/-- Link rates (R102). -/
inductive Rate where
  | fast | medium | slow
  deriving DecidableEq, Repr

/-- Where a frame came from (R97). -/
inductive Origin where
  | pass | urgent | maint | broadcast
  deriving DecidableEq, Repr

/-- Frame kinds (R98). -/
inductive Kind where
  | track | stow | maintMove | maintStatus | maintClear | maintParam
  deriving DecidableEq, Repr

/-- The phase of a dialogue (R97). -/
inductive FPhase where
  | solving | sending | awaiting
  deriving DecidableEq, Repr

/-- The frame-in-flight record of a segment while a dialogue is in progress (R97). `payload` is recorded
at the fixing (R99). Implied by the rules (log 11): `askedDrop`, the drop when the solve was asked for (R99);
`taken`, the arbiter has taken the solve request and its answer is not in yet (R90); `receiving`, a reception
is in progress and holds the remaining time (R104); `fresh`, the wait began or resumed after the last step of the
millisecond counter (R103, log 19); `corruptSeen`, a corrupt reception is among those
counted (R108). -/
structure Frame where
  origin : Origin
  heliostat : Option Nat
  askedDrop : Nat
  taken : Bool
  drop : Nat
  kind : Option Kind
  seq : Nat
  payload : List Byte
  normal : Option Vec3
  target : Option Target
  rate : Option Rate
  phase : FPhase
  remaining : Nat
  fresh : Bool
  receiving : Bool
  receptions : Nat
  corruptSeen : Bool
  orphaned : Bool
  deriving DecidableEq, Repr

/-- Who owns a maintenance record (R127). -/
inductive Owner where
  | dispatch | part
  deriving DecidableEq, Repr

/-- Maintenance actions (R127). -/
inductive Action where
  | move | status | clear | param
  deriving DecidableEq, Repr

/-- Results of a maintenance record (R127). -/
inductive MaintResult where
  | none | done | noReply | crcFail | refused | cancelled
  deriving DecidableEq, Repr

/-- The reply data of a maintenance record (R127). -/
structure Reply where
  kind : Kind
  motion : Motion
  fault : Nat
  normal : Vec3
  deriving DecidableEq, Repr

/-- A maintenance record; its slot number is its key (R127). `ops` is the six operand bytes as posted. -/
structure Slot where
  owner : Owner
  heliostat : Nat
  action : Action
  ops : List Byte
  result : MaintResult
  reply : Option Reply
  deriving DecidableEq, Repr

/-- A ring slot after pin reset (R127). -/
def Slot.reset : Slot := ⟨.dispatch, 0, .status, [0, 0, 0, 0, 0, 0], .none, none⟩

/-- Segment states (R117). -/
inductive SState where
  | disabled | idle | waiting | passing | locked
  deriving DecidableEq, Repr

/-- A transmission that was stopped: the bytes as they were being sent, and their rate (R114). -/
structure Cut where
  bytes : List Byte
  rate : Rate
  deriving DecidableEq, Repr

/-- A segment link controller (R117). `activeUs` is the babble watch's measure of active time, `none`
while it does not measure (R131): the microseconds of whole milliseconds that the activity had lasted at the last step
of the millisecond counter, −1000 where it began after that step (log 9). `cut` is the last transmission that an abandonment stopped,
whose byte under way is still sent (R114, log 30). -/
structure Seg where
  state : SState
  confRate : Rate
  rate : Rate
  timeout : Nat
  quiet : Nat
  quietLeft : Option Nat
  passPos : Option Nat
  turn : Bool
  pendingRelease : Bool
  owed : Bool
  urgent : List Nat
  slots : Tab Slot
  head : Nat
  count : Nat
  inverted : Bool
  invertedRun : Nat
  errorRun : Nat
  answered : Nat
  missed : Nat
  crcErrors : Nat
  frame : Option Frame
  activeUs : Option Int
  cut : Option Cut
  deriving DecidableEq, Repr

/-- A segment link controller after pin reset (R117). -/
def Seg.reset : Seg where
  state := .disabled
  confRate := .fast
  rate := .fast
  timeout := 10
  quiet := 10
  quietLeft := none
  passPos := none
  turn := false
  pendingRelease := false
  owed := false
  urgent := []
  slots := []
  head := 0
  count := 0
  inverted := false
  invertedRun := 0
  errorRun := 0
  answered := 0
  missed := 0
  crcErrors := 0
  frame := none
  activeUs := none
  cut := none

/-- A pending change of an input: its start time and its deadline (R139, R155). -/
structure Cand where
  start : Millis
  deadline : Millis
  deriving DecidableEq, Repr

/-- Sensor states (R139). -/
inductive SensorState where
  | sunlit | shaded | stuck
  deriving DecidableEq, Repr

/-- A capture record; the duration is `none` for OPEN (R143). -/
structure Capture where
  onset : Millis
  duration : Option Millis
  deriving DecidableEq, Repr

/-- A sensor channel (R139). -/
structure Channel where
  state : SensorState
  cand : Option Cand
  shadeStart : Millis
  records : List Capture
  depth : Nat
  overruns : Nat
  deriving DecidableEq, Repr

/-- A sensor channel after pin reset (R139). -/
def Channel.reset : Channel := ⟨.sunlit, none, 0, [], 4, 0⟩

/-- A segment's sensor map (bit k: sensor k is in it) and its shade (R139, R149). -/
structure SegShade where
  map : BitVec 8
  shaded : Bool
  deriving DecidableEq, Repr

/-- A segment's sensor map and shade after pin reset (R139). -/
def SegShade.reset : SegShade := ⟨0, false⟩

/-- The Shadow Capture Unit (R139). -/
structure Scu where
  channels : Tab Channel
  shades : Tab SegShade
  shf : Nat
  qual : Nat
  shadeMax : Nat
  deriving DecidableEq, Repr

/-- Defocus causes (R155). -/
inductive Cause where
  | none | protection | supervision
  deriving DecidableEq, Repr

/-- The Protective Action Unit (R155). Stow in effect is derived from `asserted` and `stowCommand`. -/
structure Pau where
  asserted : Bool
  lineCand : Option Cand
  stowSampled : Bool
  stowCommand : Bool
  defocus : Bool
  cause : Cause
  deadline : Nat
  deadlineLeft : Option Nat
  lateCount : Nat
  supPeriod : Nat
  supLeft : Option Nat
  fieldClear : Bool
  deriving DecidableEq, Repr

/-- Transaction phases (R173). -/
inductive TPhase where
  | deselected | command | operands | completion | data | fill
  deriving DecidableEq, Repr

/-- Completion codes (R178). -/
inductive Code where
  | done | clamped | held | busy | state | range | full | duplicate | unknown
  deriving DecidableEq, Repr

/-- Readout forms (R185). -/
inductive Form where
  | full | compact
  deriving DecidableEq, Repr

/-- The next object of a read (R183). -/
inductive Cursor where
  | heliostat (next : Nat) (form : Form)
  | zone (next : Nat)
  | segment (next : Nat)
  | maint (segment slot : Nat)
  deriving DecidableEq, Repr

/-- A port's transaction record (R173). Implied by the rules (log 20): `shift`, the bits of the current byte
received so far; `high`, the level of the clock line as the port last saw it; `out`, the level presented on the
data output. -/
structure Txn where
  phase : TPhase
  bitCount : Nat
  command : Option Byte
  operands : List Byte
  completion : Option Code
  cursor : Option Cursor
  object : List Byte
  position : Nat
  shift : Byte
  high : Bool
  out : Bool
  deriving DecidableEq, Repr

/-- A transaction record at its reset values (R173). -/
def Txn.reset : Txn := ⟨.deselected, 0, none, [], none, none, [], 0, 0, false, true⟩

/-- Dispatch events (R190). -/
inductive DEvent where
  | sweepDone | epochOverrun | sunHeld | heliostatOffline | heliostatFault | trackingError
  | zoneShed | zoneOver | segmentLocked | polarityInverted | rateFallback | passOverrun
  | maintReturned | captureOverrun | sensorStuck | stowChange | defocusChange | supervisionExpired
  deriving DecidableEq, Repr

/-- Protection events (R190). -/
inductive PEvent where
  | zoneShed | zoneOver | defocusComplete | defocusLate | stowChange | sensorStuck
  | supervisionExpired | heliostatFault
  deriving DecidableEq, Repr

/-- The levels outside the part at its inputs: the two select lines (R173, R187), the sensor inputs
(bit k high: SHDk high, R140), STOWREQ_N (R156) and the activity of the receive lines (bit k: FLk_RX
is active, R131). -/
structure Pins where
  dselLow : Bool
  pselLow : Bool
  shd : BitVec 8
  stowreqN : Bool
  rx : BitVec 8
  deriving DecidableEq, Repr

/-- The answer of a solve that was taken and is not handed over yet (R90, R92): the segment that asked, and
whether the record was absent when the request was taken. -/
structure SolveOut where
  segment : Nat
  absent : Bool
  deriving DecidableEq, Repr

/-- The state of the DN-2000, and the queue of the commands that wait. `draws` and `pending` are the model's
own. -/
structure State where
  ms : Millis
  hels : Tab Hel
  points : Tab Point
  zones : Tab Zone
  segs : Tab Seg
  sun : Sun
  snapshot : Option Sun
  sweep : Sweep
  lastServed : Nat
  solveOut : Option SolveOut
  epoch : Epoch
  rsg : Rsg
  link : LinkSettings
  scu : Scu
  pau : Pau
  dpt : Txn
  ppt : Txn
  form : Form
  devents : BitVec 18
  dmask : BitVec 18
  pevents : BitVec 8
  pmask : BitVec 8
  pins : Pins
  draws : Nat
  pending : List Instr
  deriving DecidableEq, Repr

/-- Why the block stops with a fault. The spec gives the block no stop, so there is no reason: no command
faults (safe: nothing is cut off). -/
inductive Fault where
  deriving DecidableEq, Repr

/-- Why a command has no meaning. -/
inductive Refusal where
  /-- Raised by `exec` for a command that has no meaning yet; safe, since the run ends there. -/
  | notModelled (mnemonic : String)
  deriving DecidableEq, Repr

/-- The answer of one command. -/
abbrev Outcome := Host.Outcome State Fault Refusal

/-- The block after pin reset: every item at the value its rule gives (R3, R6, R20, R21, R45, R46, R48,
R52, R78, R82, R91, R93, R117, R139, R155, R173, R185, R191, R194). DESIGN CHOICE, unsafe (log 8): the
input pins and the last sample of STOWREQ_N, which no rule gives, are at their inactive levels. -/
def State.reset : State where
  ms := 0
  hels := []
  points := []
  zones := []
  segs := []
  sun := ⟨false, ⟨0, 0, 0⟩, 0, 0⟩
  snapshot := none
  sweep := ⟨false, [], none, 0⟩
  lastServed := 7
  solveOut := none
  epoch := ⟨false, 0, none, 0⟩
  rsg := ⟨0, 0, 1, []⟩
  link := ⟨3, 3, 32766⟩
  scu := ⟨[], [], 256, 5, 0⟩
  pau := ⟨false, none, true, false, false, .none, 100, none, 0, 0, none, true⟩
  dpt := Txn.reset
  ppt := Txn.reset
  form := .full
  devents := 0
  dmask := BitVec.allOnes 18
  pevents := 0
  pmask := BitVec.allOnes 8
  pins := ⟨false, false, BitVec.allOnes 8, true, 0⟩
  draws := 0
  pending := []

end Sys2Proof.Machine
end

