-- ==== Sys2Proof/Machine/Flags.lean ====
section
/-! DEFINITION. Event sets, masks and attention lines of the two ports (section 10.2 to 10.4). -/

namespace Sys2Proof.Machine

/-- The position of a dispatch event (R190). -/
def DEvent.pos : DEvent → Nat
  | .sweepDone => 0 | .epochOverrun => 1 | .sunHeld => 2 | .heliostatOffline => 3
  | .heliostatFault => 4 | .trackingError => 5 | .zoneShed => 6 | .zoneOver => 7
  | .segmentLocked => 8 | .polarityInverted => 9 | .rateFallback => 10 | .passOverrun => 11
  | .maintReturned => 12 | .captureOverrun => 13 | .sensorStuck => 14 | .stowChange => 15
  | .defocusChange => 16 | .supervisionExpired => 17

/-- The position of a protection event (R190). -/
def PEvent.pos : PEvent → Nat
  | .zoneShed => 0 | .zoneOver => 1 | .defocusComplete => 2 | .defocusLate => 3
  | .stowChange => 4 | .sensorStuck => 5 | .supervisionExpired => 6 | .heliostatFault => 7

/-- Raise an event on the dispatch port: it becomes, or stays, pending (R191). -/
def State.raiseD (s : State) (e : DEvent) : State :=
  { s with devents := s.devents ||| (1#18 <<< e.pos) }

/-- Raise an event on the protection port (R191). -/
def State.raiseP (s : State) (e : PEvent) : State :=
  { s with pevents := s.pevents ||| (1#8 <<< e.pos) }

/-- Raise an event on both ports, as two independent pending events (R192). -/
def State.raiseBoth (s : State) (d : DEvent) (p : PEvent) : State :=
  (s.raiseD d).raiseP p

/-- Whether a dispatch event is pending (R191). -/
def State.dPending (s : State) (e : DEvent) : Bool := s.devents.getLsbD e.pos

/-- Whether a protection event is pending (R191). -/
def State.pPending (s : State) (e : PEvent) : Bool := s.pevents.getLsbD e.pos

/-- Whether a port drives its attention output low: an event is both pending and unmasked (R197). -/
def State.attention (s : State) : Port → Bool
  | .dispatch => s.devents &&& ~~~s.dmask != 0
  | .protection => s.pevents &&& ~~~s.pmask != 0

/-- SET_MASK's effect: the whole mask of the port is written; operand positions that name no event of
the port are not examined (R194). -/
def State.writeMask (s : State) (p : Port) (m : BitVec 24) : State :=
  match p with
  | .dispatch => { s with dmask := m.setWidth 18 }
  | .protection => { s with pmask := m.setWidth 8 }

/-- ACK_EVENTS' effect: the named events leave the port's event set (R195). -/
def State.acknowledge (s : State) (p : Port) (m : BitVec 24) : State :=
  match p with
  | .dispatch => { s with devents := s.devents &&& ~~~(m.setWidth 18) }
  | .protection => { s with pevents := s.pevents &&& ~~~(m.setWidth 8) }

end Sys2Proof.Machine
end

