-- ==== Sys2Proof/Machine/Operands.lean ====
section
/-! DEFINITION. Operands: what a received number means, how a setting limits it, and the codes of
section 11.2 that operands carry. -/

namespace Sys2Proof.Machine

/-- A component received from outside: −32768 is taken as −32767 (R2). -/
def component (w : BitVec 16) : Int := max w.toInt (-32767)

/-- Whether a received component is the one that R2 changes. -/
def componentLimited (w : BitVec 16) : Bool := w.toInt == -32768

/-- Three components received as six bytes' worth of words (R2). -/
def components (x y z : BitVec 16) : Vec3 := ⟨component x, component y, component z⟩

/-- A coordinate lies in −1,000,000..1,000,000 (R1). -/
def inPlant (c : Int) : Bool := -1000000 ≤ c && c ≤ 1000000

/-- Every coordinate of a position lies in the plant frame's range (R1). -/
def positionOk (v : Vec3) : Bool := inPlant v.x && inPlant v.y && inPlant v.z

/-- A value limited to lo..hi. -/
def clamp (lo hi v : Nat) : Nat := max lo (min hi v)

/-- A point operand where 255 is NONE (R180). -/
def pointOperand (b : Byte) : Option Nat := if b = 255 then none else some b.toNat

/-- The rate code of SET_LINK (R200). -/
def rateOf (b : Byte) : Option Rate :=
  match b.toNat with
  | 0 => some .fast
  | 1 => some .medium
  | 2 => some .slow
  | _ => none

/-- The time of one line bit at a rate, in microseconds (R102): a tenth of the byte time. -/
def Rate.bitUs : Rate → Nat
  | .fast => 1
  | .medium => 4
  | .slow => 16

/-- The time of `n` bytes on the line at a rate, in microseconds, at ten line bits a byte (R102). -/
def Rate.bytesUs (r : Rate) (n : Nat) : Nat := 10 * n * r.bitUs

/-- The action code of POST_MAINT (R200). -/
def actionOf (b : Byte) : Option Action :=
  match b.toNat with
  | 0x11 => some .move
  | 0x12 => some .status
  | 0x13 => some .clear
  | 0x14 => some .param
  | _ => none

/-- The form code of SET_FORM (R200). -/
def formOf (b : Byte) : Option Form :=
  match b.toNat with
  | 0 => some .full
  | 1 => some .compact
  | _ => none

/-- The kind of the frame a maintenance action sends (R98). -/
def Action.kind : Action → Kind
  | .move => .maintMove
  | .status => .maintStatus
  | .clear => .maintClear
  | .param => .maintParam

/-- Kind codes (R199). -/
def Kind.code : Kind → Byte
  | .track => 0x01
  | .stow => 0x02
  | .maintMove => 0x11
  | .maintStatus => 0x12
  | .maintClear => 0x13
  | .maintParam => 0x14

/-- The motion a reply's motion field names, or none where the code is not one of the four (R105, R199). -/
def motionOf (n : Nat) : Option Motion :=
  match n with
  | 1 => some .moving
  | 2 => some .settled
  | 3 => some .stowed
  | 4 => some .halted
  | _ => none

/-- Byte `k` of eight operand bytes, the first of them byte 0 (R182). -/
def byteAt (w : BitVec 64) (k : Nat) : Byte := w.extractLsb' (8 * (7 - k)) 8

/-- PTOL limited to its range (R20). -/
def clampPtol (v : Nat) : Nat := clamp 30000 32767 v

/-- A code a taken command returns: CLAMPED where something was limited (R178). -/
def takenCode (limited : Bool) : Code := if limited then .clamped else .done

end Sys2Proof.Machine
end

