-- ==== Sys2Proof/Machine/Table.lean ====
section
/-! DEFINITION. Reading and writing a sparse table. The laws stand in Laws/Table.lean. -/

namespace Sys2Proof.Machine

/-- The record in slot `i`; an unlisted slot holds `d`. -/
def Tab.get {α : Type} (d : α) : Tab α → Nat → α
  | [], _ => d
  | (k, v) :: t, i => if k = i then v else Tab.get d t i

/-- The table with slot `i` listed as `v`, before the first greater key. -/
def Tab.insert {α : Type} (i : Nat) (v : α) : Tab α → Tab α
  | [] => [(i, v)]
  | (k, w) :: t => if i < k then (i, v) :: (k, w) :: t else (k, w) :: Tab.insert i v t

/-- The table with slot `i` not listed. -/
def Tab.erase {α : Type} (t : Tab α) (i : Nat) : Tab α :=
  t.filter fun e => e.1 != i

/-- The table with slot `i` holding `v`: listed unless `v` is the value of an unlisted slot. -/
def Tab.put {α : Type} [DecidableEq α] (d : α) (t : Tab α) (i : Nat) (v : α) : Tab α :=
  if v = d then Tab.erase t i else Tab.insert i v (Tab.erase t i)

/-- The table with each slot of `is` rewritten by `f`. -/
def Tab.update {α : Type} [DecidableEq α] (d : α) (f : Nat → α → α) (is : List Nat) (t : Tab α) : Tab α :=
  is.foldl (fun t i => Tab.put d t i (f i (Tab.get d t i))) t

/-- The canonical form: keys strictly rising, no entry equal to the value of an unlisted slot. -/
def Tab.wf {α : Type} [DecidableEq α] (d : α) : Tab α → Bool
  | [] => true
  | [(_, v)] => decide (v ≠ d)
  | (k, v) :: (k', v') :: t => decide (v ≠ d) && decide (k < k') && Tab.wf d ((k', v') :: t)

end Sys2Proof.Machine
end

