-- ==== Sys2Proof/Machine/Ops.lean ====
section
/-! DEFINITION. The shared operations on the records: reading and writing them, the current target, the
flux sums, the moves between collections, departures, stranding and FIELD_CLEAR. -/

namespace Sys2Proof.Machine

/-! ### Records -/

/-- A heliostat record. -/
def State.hel (s : State) (i : Nat) : Hel := Tab.get Hel.empty s.hels i

/-- Write a heliostat record. -/
def State.setHel (s : State) (i : Nat) (h : Hel) : State :=
  { s with hels := Tab.put Hel.empty s.hels i h }

/-- Rewrite a heliostat record. -/
def State.modHel (s : State) (i : Nat) (f : Hel → Hel) : State := s.setHel i (f (s.hel i))

/-- An aim point record. -/
def State.point (s : State) (p : Nat) : Point := Tab.get Point.reset s.points p

/-- Rewrite an aim point record. -/
def State.modPoint (s : State) (p : Nat) (f : Point → Point) : State :=
  { s with points := Tab.put Point.reset s.points p (f (s.point p)) }

/-- A zone record. -/
def State.zone (s : State) (z : Nat) : Zone := Tab.get Zone.reset s.zones z

/-- Rewrite a zone record. -/
def State.modZone (s : State) (z : Nat) (f : Zone → Zone) : State :=
  { s with zones := Tab.put Zone.reset s.zones z (f (s.zone z)) }

/-- A segment link controller. -/
def State.seg (s : State) (k : Nat) : Seg := Tab.get Seg.reset s.segs k

/-- Rewrite a segment link controller. -/
def State.modSeg (s : State) (k : Nat) (f : Seg → Seg) : State :=
  { s with segs := Tab.put Seg.reset s.segs k (f (s.seg k)) }

/-- Rewrite all eight segment link controllers. -/
def State.modSegs (s : State) (f : Seg → Seg) : State :=
  { s with segs := Tab.update Seg.reset (fun _ => f) (List.range 8) s.segs }

/-- A sensor channel. -/
def State.channel (s : State) (k : Nat) : Channel := Tab.get Channel.reset s.scu.channels k

/-- Rewrite a sensor channel. -/
def State.modChannel (s : State) (k : Nat) (f : Channel → Channel) : State :=
  { s with scu := { s.scu with channels := Tab.put Channel.reset s.scu.channels k (f (s.channel k)) } }

/-- A segment's sensor map and shade. -/
def State.shade (s : State) (k : Nat) : SegShade := Tab.get SegShade.reset s.scu.shades k

/-- Rewrite a segment's sensor map and shade. -/
def State.modShade (s : State) (k : Nat) (f : SegShade → SegShade) : State :=
  { s with scu := { s.scu with shades := Tab.put SegShade.reset s.scu.shades k (f (s.shade k)) } }

/-- A segment's release timer (R93). -/
def State.timer (s : State) (k : Nat) : Option Nat := Tab.get none s.rsg.timers k

/-- Write a segment's release timer. -/
def State.setTimer (s : State) (k : Nat) (t : Option Nat) : State :=
  { s with rsg := { s.rsg with timers := Tab.put none s.rsg.timers k t } }

/-- The indices of the present records, ascending where the table is canonical (R21). -/
def State.present (s : State) : List Nat :=
  (s.hels.filter fun e => e.2.state != .absent).map (·.1)

/-! ### Points, zones and the current target -/

/-- A valid receiver point (R48). -/
def State.receiverOk (s : State) (p : Nat) : Bool := p ≤ 95 && (s.point p).valid

/-- Stow is in effect: the line request is ASSERTED or the stow command is set (R158). -/
def State.stowInEffect (s : State) : Bool := s.pau.asserted || s.pau.stowCommand

/-- The zone of a heliostat's assigned point (R23); 0 where it has none, which no rule reads. -/
def State.assignedZone (s : State) (h : Hel) : Nat :=
  match h.assignment with
  | some p => (s.point p).zone
  | none => 0

/-- The alternate of a heliostat's assigned point (R29). -/
def State.alternateOf (s : State) (h : Hel) : Option Nat :=
  h.assignment.bind fun p => (s.point p).alternate

/-- The receiver point an ON_TARGET heliostat is aimed at (R29). -/
def State.aimedPoint (s : State) (h : Hel) : Option Nat :=
  if h.onAlternate then s.alternateOf h else h.assignment

/-- The zone whose join list an ON_TARGET heliostat is in: that of its primary point, or of its
alternate point when on_alternate is set (section 2.2). -/
def State.joinZone (s : State) (h : Hel) : Nat :=
  match s.aimedPoint h with
  | some p => (s.point p).zone
  | none => 0

/-- The standby point of the assigned point's zone, where the zone names one and it is valid;
otherwise STOW (R29). -/
def State.standbyTarget (s : State) (h : Hel) : Target :=
  match h.assignment with
  | none => .stow
  | some p =>
    match (s.zone (s.point p).zone).standby with
    | some q => if (s.point q).valid then .point q else .stow
    | none => .stow

/-- A target that is a point, or STOW where there is none. -/
def targetOf : Option Nat → Target
  | some p => .point p
  | none => .stow

/-- The current target of a present record (R29). -/
def State.currentTarget (s : State) (h : Hel) : Target :=
  if s.stowInEffect then .stow
  else match h.state with
    | .onTarget => targetOf (s.aimedPoint h)
    | .queued | .standby | .offline => s.standbyTarget h
    | .stowed | .excluded | .faulted | .absent => .stow

/-- An off-receiver target: STOW or a standby point (R29, R48). -/
def Target.offReceiver : Target → Bool
  | .stow => true
  | .point n => 96 ≤ n

/-- A tag matches when its valid flag is set and its target is the current target (R16). -/
def Tag.matches (t : Tag) (c : Target) : Bool := t.valid && t.target == c

/-! ### Flux -/

/-- The effective contribution: P_clear, or P_clear x SHF / 256 while the segment is shaded (R15). -/
def State.pEff (s : State) (h : Hel) : Nat :=
  if (s.shade h.segment).shaded then h.pClear * s.scu.shf / 256 else h.pClear

/-- The sum of P_eff over a zone's join list (R64). -/
def State.joinSum (s : State) (z : Nat) : Nat :=
  ((s.zone z).joinList.map fun i => s.pEff (s.hel i)).sum

/-- A zone's committed flux: the join-list sum plus its stranded flux (R64). -/
def State.committed (s : State) (z : Nat) : Nat := s.joinSum z + (s.zone z).stranded

/-- A zone's effective limit in kW: the lesser of its two limits (R53). -/
def Zone.effectiveLimit (zn : Zone) : Nat := min zn.dispatchLimit zn.protectLimit

/-- The effective limit in watts, as it is compared with committed flux (R53). -/
def State.limitW (s : State) (z : Nat) : Nat := 1000 * (s.zone z).effectiveLimit

/-- The zone's committed flux exceeds 1000 times its effective limit. -/
def State.overLimit (s : State) (z : Nat) : Bool := s.limitW z < s.committed z

/-! ### FIELD_CLEAR -/

/-- The number of ON_TARGET heliostats: the total length of the twelve join lists (R172). -/
def State.onTargetCount (s : State) : Nat := ((List.range 12).map fun z => (s.zone z).joinList.length).sum

/-- The number of departing heliostats: the sum of the twelve pending departures counts (R172). -/
def State.departingCount (s : State) : Nat := ((List.range 12).map fun z => (s.zone z).pendingDepartures).sum

/-- The total stranded flux of the twelve zones (R172). -/
def State.strandedTotal (s : State) : Nat := ((List.range 12).map fun z => (s.zone z).stranded).sum

/-- The condition FIELD_CLEAR shows: no heliostat ON_TARGET, departure set empty, no stranded flux (R170). -/
def State.fieldIsClear (s : State) : Bool :=
  s.onTargetCount == 0 && s.departingCount == 0 && s.strandedTotal == 0

/-- Re-derive FIELD_CLEAR at the end of an action that may change one of its three figures; a rise raises
DEFOCUS_COMPLETE on the protection port (R170, R171). -/
def State.refreshClear (s : State) : State :=
  let t := { s with pau := { s.pau with fieldClear := s.fieldIsClear } }
  if s.fieldIsClear && !s.pau.fieldClear then t.raiseP .defocusComplete else t

/-- The level of the FCLR pin: low while RESET_N is low, FIELD_CLEAR otherwise (R170). -/
def State.fclrPin (s : State) (resetLow : Bool) : Bool := !resetLow && s.pau.fieldClear

/-! ### Urgent queues -/

/-- Enter a heliostat at the tail of a segment's urgent queue, unless it already stands there (R61, R122). -/
def State.urgentAdd (s : State) (k i : Nat) : State :=
  s.modSeg k fun g => { g with urgent := if i ∈ g.urgent then g.urgent else g.urgent ++ [i] }

/-- Remove a heliostat's entry from a segment's urgent queue (R122). -/
def State.urgentRemove (s : State) (k i : Nat) : State :=
  s.modSeg k fun g => { g with urgent := g.urgent.filter (· != i) }

/-! ### Departures and stranding -/

/-- Clear on_alternate; where it was set, the diverted count of the assigned point and the alternate load
of its alternate fall by one (R51). -/
def State.clearAlternate (s : State) (i : Nat) : State :=
  let h := s.hel i
  if h.onAlternate then
    let s1 := match h.assignment with
      | some p => s.modPoint p fun a => { a with diverted := a.diverted - 1 }
      | none => s
    let s2 := match s.alternateOf h with
      | some q => s1.modPoint q fun a => { a with altLoad := a.altLoad - 1 }
      | none => s1
    s2.modHel i fun h => { h with onAlternate := false }
  else s

/-- A move off the receiver from zone `z`'s join list to state `dst`: a departure (R28, R61). -/
def State.departFrom (s : State) (z i : Nat) (dst : HState) : State :=
  let k := (s.hel i).segment
  let s1 := s.clearAlternate i
  let s2 := s1.modZone z fun zn =>
    { zn with joinList := zn.joinList.erase i, pendingDepartures := zn.pendingDepartures + 1 }
  let s3 := s2.modHel i fun h => { h with state := dst, departing := true, departureZone := some z }
  s3.urgentAdd k i

/-- A heliostat leaves ON_TARGET as a departure (R26, R61). -/
def State.depart (s : State) (i : Nat) (dst : HState) : State :=
  s.departFrom (s.joinZone (s.hel i)) i dst

/-- A heliostat leaves ON_TARGET for OFFLINE or FAULTED: its P_eff passes into its zone's stranded flux in
the same action as its departure (R47). -/
def State.departStranding (s : State) (i : Nat) (dst : HState) : State :=
  let h := s.hel i
  let z := s.joinZone h
  let a := s.pEff h
  let s1 := s.depart i dst
  let s2 := s1.modZone z fun zn => { zn with stranded := zn.stranded + a }
  s2.modHel i fun h => { h with stranded := some ⟨z, a⟩ }

/-- The departing flag and departure zone are cleared and the zone's pending departures count falls by
one (R62, R63). -/
def State.clearDeparture (s : State) (i : Nat) : State :=
  let h := s.hel i
  if h.departing then
    let s1 := match h.departureZone with
      | some z => s.modZone z fun zn => { zn with pendingDepartures := zn.pendingDepartures - 1 }
      | none => s
    s1.modHel i fun h => { h with departing := false, departureZone := none }
  else s

/-- R57's second case: an OVER zone whose committed flux a release brought within its limit becomes HELD
or NORMAL. -/
def State.leaveOver (s : State) (z : Nat) : State :=
  if (s.zone z).state = .over ∧ s.overLimit z = false then
    s.modZone z fun zn => { zn with state := if zn.hold then .held else .normal }
  else s

/-- A stranded field that is present is removed: the zone's stranded flux falls by the amount, and R57 is
applied to the zone (R26, R65). -/
def State.releaseFlux (s : State) (i : Nat) : State :=
  match (s.hel i).stranded with
  | some st =>
    ((s.modZone st.zone fun zn => { zn with stranded := zn.stranded - st.amount }).modHel i
      fun h => { h with stranded := none }).leaveOver st.zone
  | none => s

/-! ### Rejoin queues -/

/-- Into QUEUED: appended at the tail of the assigned zone's rejoin queue (R28). -/
def State.enqueue (s : State) (i : Nat) : State :=
  let z := s.assignedZone (s.hel i)
  (s.modZone z fun zn => { zn with queue := zn.queue ++ [i] }).modHel i fun h => { h with state := .queued }

/-- Out of QUEUED: removed from the queue, wherever it stands in it (R28). -/
def State.dequeue (s : State) (i : Nat) (dst : HState) : State :=
  let z := s.assignedZone (s.hel i)
  (s.modZone z fun zn => { zn with queue := zn.queue.erase i }).modHel i fun h => { h with state := dst }

/-- A heliostat that may return to its queue does; otherwise it stands STOWED with any assignment kept
(R40, R43, with the stow and TRACKING_ERROR conditions). -/
def State.queueOrStow (s : State) (i : Nat) : State :=
  let h := s.hel i
  if h.assignment.isSome && !s.stowInEffect && !h.trackingError then s.enqueue i
  else s.modHel i fun h => { h with state := .stowed }

/-! ### Segments -/

/-- An enabled segment that is neither PASSING nor LOCKED is WAITING while its release timer runs and
IDLE while it does not (R120). -/
def State.restState (s : State) (k : Nat) : SState :=
  if (s.timer k).isSome then .waiting else .idle

/-- The receive line of segment `k` is active. -/
def State.rxActive (s : State) (k : Nat) : Bool := s.pins.rx.getLsbD k

/-- The measure of active time where it begins. No row says at which moment of its millisecond it comes, and the
measure counts from that millisecond's end (log 9). -/
def newWatch : Int := -1000

/-- The babble watch begins with the line as it then stands (R118, R131). -/
def State.freshWatch (s : State) (k : Nat) : Option Int := if s.rxActive k then some newWatch else none

/-- Set the level outside a receive line. -/
def State.setRx (s : State) (k : Nat) (active : Bool) : State :=
  { s with pins := { s.pins with
      rx := if active then s.pins.rx ||| (1#8 <<< k) else s.pins.rx &&& ~~~(1#8 <<< k) } }

/-- A frame to the heliostat that is being sent or awaits its reply is orphaned (R113). -/
def Frame.orphanedBy (i : Nat) (f : Frame) : Frame :=
  if f.heliostat == some i && f.phase != .solving then { f with orphaned := true } else f

/-- A RETIRE or a change of address orphans the segment's frame in flight to that heliostat (R113). -/
def State.orphan (s : State) (k i : Nat) : State :=
  s.modSeg k fun g => { g with frame := g.frame.map (Frame.orphanedBy i) }

/-- Remove an index from the remaining set of the sweep in flight (R85). -/
def State.unsweep (s : State) (i : Nat) : State :=
  { s with sweep := { s.sweep with remaining := s.sweep.remaining.filter (· != i) } }

end Sys2Proof.Machine
end

