-- ==== Sys2Proof/Machine/Readout.lean ====
section
/-! DEFINITION. Readout objects: the bytes each read fixes, by the layouts of section 11.3 (R201). -/

namespace Sys2Proof.Machine

/-- One byte. -/
def be8 (n : Nat) : List Byte := [BitVec.ofNat 8 n]

/-- Two bytes, high byte first. -/
def be16 (n : Nat) : List Byte := bytes16 (BitVec.ofNat 16 n)

/-- Three bytes, high byte first. -/
def be24 (n : Nat) : List Byte := bytes24 (BitVec.ofNat 24 n)

/-- Four bytes, high byte first. -/
def be32 (n : Nat) : List Byte := bytes32 (BitVec.ofNat 32 n)

/-- A 16-bit signed number in two's complement. -/
def signed16 (v : Int) : List Byte := bytes16 (BitVec.ofInt 16 v)

/-- A 32-bit signed number in two's complement. -/
def signed32 (v : Int) : List Byte := bytes32 (BitVec.ofInt 32 v)

/-- A flag as a bit, 1 when it is set (the conventions of chapter 11); sent as a whole byte it is 0x01 when set and 0x00
when clear (DESIGN CHOICE, log 28). -/
def flag (b : Bool) : Nat := if b then 1 else 0

/-- Flag bits, the first in bit 0. The bits of a flags byte that its layout gives no flag are sent as 0 (DESIGN CHOICE,
log 27). -/
def flagBits : List Bool → Nat
  | [] => 0
  | b :: r => flag b + 2 * flagBits r

/-- Three 16-bit components. -/
def vector16 (v : Vec3) : List Byte := signed16 v.x ++ signed16 v.y ++ signed16 v.z

/-- A vector that may be absent: zeros, its flag reporting the absence. -/
def optVector16 (v : Option Vec3) : List Byte := vector16 (v.getD ⟨0, 0, 0⟩)

/-- A one-byte point or zone, 0xFF where absent. -/
def optByte (v : Option Nat) : List Byte := be8 (v.getD 0xFF)

/-- A countdown or an index, 0xFFFF where stopped or absent. -/
def optWord (v : Option Nat) : List Byte := be16 (v.getD 0xFFFF)

/-- Heliostat state codes. -/
def HState.code : HState → Nat
  | .absent => 0 | .offline => 1 | .stowed => 2 | .queued => 3
  | .onTarget => 4 | .standby => 5 | .excluded => 6 | .faulted => 7

/-- Zone state codes. -/
def ZState.code : ZState → Nat
  | .normal => 0 | .full => 1 | .held => 2 | .over => 3

/-- Segment state codes. -/
def SState.code : SState → Nat
  | .disabled => 0 | .idle => 1 | .waiting => 2 | .passing => 3 | .locked => 4

/-- Sensor state codes. -/
def SensorState.code : SensorState → Nat
  | .sunlit => 0 | .shaded => 1 | .stuck => 2

/-- Maintenance result codes. -/
def MaintResult.code : MaintResult → Nat
  | .none => 0 | .done => 1 | .noReply => 2 | .crcFail => 3 | .refused => 4 | .cancelled => 5

/-- Motion codes of records: NONE 0, then those of R199. -/
def Motion.code : Motion → Nat
  | .none => 0 | .moving => 1 | .settled => 2 | .stowed => 3 | .halted => 4

/-- Rate codes (R200). -/
def Rate.code : Rate → Nat
  | .fast => 0 | .medium => 1 | .slow => 2

/-- Origin codes. -/
def Origin.code : Origin → Nat
  | .pass => 1 | .urgent => 2 | .maint => 3 | .broadcast => 4

/-- Phase codes of a dialogue in progress. -/
def FPhase.code : FPhase → Nat
  | .solving => 1 | .sending => 2 | .awaiting => 3

/-- Owner codes. -/
def Owner.code : Owner → Nat
  | .dispatch => 0 | .part => 1

/-- Defocus cause codes. -/
def Cause.code : Cause → Nat
  | .none => 0 | .protection => 1 | .supervision => 2

/-- Completion codes (R200). -/
def Code.byte : Code → Byte
  | .done => 0x00 | .clamped => 0x01 | .held => 0x02 | .busy => 0x03 | .state => 0x10
  | .range => 0x11 | .full => 0x12 | .duplicate => 0x13 | .unknown => 0x1F

/-- Readout form codes (R200). -/
def Form.code : Form → Nat
  | .full => 0 | .compact => 1

/-- The target byte: a point's number, 0xFF for STOW. -/
def Target.byte : Target → Nat
  | .stow => 0xFF
  | .point n => n

/-- The FULL heliostat object, 54 bytes. The current target of an absent record is sent as 0xFE, no target
(DEDUCED, log 14). -/
def State.fullObject (s : State) (i : Nat) : List Byte :=
  let h := s.hel i
  be16 i ++ be8 h.state.code ++ be8 h.segment ++ be8 h.drop
    ++ signed32 h.pos.x ++ signed32 h.pos.y ++ signed32 h.pos.z
    ++ be16 h.area ++ be16 h.refl ++ optByte h.assignment
    ++ be8 (flagBits [h.onAlternate, h.pValid, h.pNewValid, h.mark, h.departing, h.trackingError,
        h.geometry, h.noSolution])
    ++ be8 (if h.state = .absent then 0xFE else (s.currentTarget h).byte)
    ++ vector16 h.nCmd ++ be8 h.tag.target.byte
    ++ be8 (flagBits [h.tag.valid, h.nRep.isSome, h.stranded.isSome])
    ++ optVector16 h.nRep ++ be8 h.motion.code ++ be8 h.fault
    ++ be24 h.pClear ++ be24 h.pNew ++ be8 h.seq ++ be8 h.miss ++ be8 h.dev
    ++ optByte (h.stranded.map (·.zone)) ++ be24 ((h.stranded.map (·.amount)).getD 0)
    ++ optByte (if h.departing then h.departureZone else none)

/-- The high byte of a normal component, rounded toward minus infinity (R185). -/
def highByte (v : Int) : List Byte := [BitVec.ofInt 8 (v / 256)]

/-- The high bytes of a vector. -/
def highBytes (v : Vec3) : List Byte := highByte v.x ++ highByte v.y ++ highByte v.z

/-- The COMPACT heliostat object, 13 bytes (R185). -/
def State.compactObject (s : State) (i : Nat) : List Byte :=
  let h := s.hel i
  be16 i ++ be8 h.state.code ++ be8 (flagBits [h.pValid, h.nRep.isSome]) ++ be24 h.pClear
    ++ highBytes h.nCmd ++ highBytes (h.nRep.getD ⟨0, 0, 0⟩)

/-- The heliostat object in a readout form (R185). -/
def State.helObject (s : State) (f : Form) (i : Nat) : List Byte :=
  match f with
  | .full => s.fullObject i
  | .compact => s.compactObject i

/-- The zone object, 25 bytes, with the items of R52. -/
def State.zoneObject (s : State) (z : Nat) : List Byte :=
  let zn := s.zone z
  be8 z ++ be16 zn.dispatchLimit ++ be16 zn.protectLimit ++ be16 zn.effectiveLimit
    ++ be8 (flagBits [zn.hold]) ++ be8 zn.rjMax ++ optByte zn.standby
    ++ be32 (s.committed z) ++ be32 zn.stranded
    ++ be16 zn.joinList.length ++ be16 zn.queue.length ++ be16 zn.pendingDepartures ++ be8 zn.state.code

/-- Offsets 20..38 of a segment object (R201). A frame that is not fixed holds no drop, kind, seq or rate
(R113), and the spec does not say what is sent for them: free values (log 7). -/
def frameBytes (draw : Nat) : Option Frame → List Byte
  | none => [0, 0, 0xFF, 0xFF, 0, 0, 0, 0, 0, 0, 0, 0, 0, 0xFE, 0, 0, 0, 0, 0]
  | some f =>
    be8 f.phase.code ++ be8 f.origin.code ++ optWord f.heliostat
      ++ (if f.phase = .solving then [Config.freeByte draw 24, Config.freeByte draw 25, Config.freeByte draw 26]
          else be8 f.drop ++ [(f.kind.map Kind.code).getD 0] ++ be8 f.seq)
      ++ optVector16 f.normal
      ++ be8 ((f.target.map Target.byte).getD 0xFE)
      ++ (if f.phase = .solving then [Config.freeByte draw 34] else be8 ((f.rate.map Rate.code).getD 0))
      ++ be16 (if f.phase = .awaiting then f.remaining else 0)
      ++ be8 f.receptions ++ be8 (flagBits [f.normal.isSome, f.orphaned])

/-- The segment object, 40 bytes and 2 for each urgent entry (R117, R201). -/
def State.segmentObject (s : State) (k : Nat) : List Byte :=
  let g := s.seg k
  be8 k ++ be8 g.state.code ++ be8 g.confRate.code ++ be8 g.rate.code ++ be8 g.timeout ++ be8 g.quiet
    ++ optWord g.quietLeft ++ be8 (flagBits [g.turn, g.pendingRelease, g.owed, g.inverted])
    ++ be8 (g.passPos.getD 0) ++ be8 g.invertedRun ++ be8 g.errorRun ++ be8 g.head ++ be8 g.count
    ++ be16 g.answered ++ be16 g.missed ++ be16 g.crcErrors
    ++ frameBytes s.draws g.frame
    ++ be8 g.urgent.length ++ (g.urgent.map be16).flatten

/-- A maintenance record of a segment's ring (R127). -/
def Seg.slot (g : Seg) (n : Nat) : Slot := Tab.get Slot.reset g.slots n

/-- The maintenance object, 21 bytes. -/
def State.maintObject (s : State) (k n : Nat) : List Byte :=
  let r := (s.seg k).slot n
  be8 n ++ be8 r.owner.code ++ be16 r.heliostat ++ [r.action.kind.code] ++ r.ops ++ be8 r.result.code
    ++ (match r.reply with
        | some y => [y.kind.code] ++ be8 y.motion.code ++ be8 y.fault ++ vector16 y.normal
        | none => [0, 0, 0, 0, 0, 0, 0, 0, 0])

/-- The capture readout, 12 bytes (R145). -/
def State.captureObject (s : State) (k : Nat) : List Byte :=
  let c := s.channel k
  be8 k ++ be8 c.records.length ++ be8 c.overruns
    ++ (match c.records with
        | r :: _ => be8 1 ++ bytes32 r.onset ++ bytes32 (r.duration.getD 0xFFFFFFFF)
        | [] => be8 0 ++ be32 0 ++ be32 0)

/-- The list object of READ_JOIN_LIST and READ_QUEUE (R184). -/
def listObject (z : Nat) (l : List Nat) : List Byte :=
  be8 z ++ be16 l.length ++ (l.map be16).flatten

/-- The status object of the Protective Action Unit, 24 bytes, on both ports (R155, R172). -/
def State.pauStatus (s : State) : List Byte :=
  let p := s.pau
  be8 (flag p.asserted) ++ be8 (flag p.stowCommand) ++ be8 (flag s.stowInEffect)
    ++ be8 (flag p.defocus) ++ be8 p.cause.code ++ be16 p.deadline ++ optWord p.deadlineLeft
    ++ be16 p.lateCount ++ be8 p.supPeriod ++ optWord p.supLeft
    ++ be8 (flag p.fieldClear) ++ be8 (flag p.stowSampled)
    ++ be16 s.onTargetCount ++ be16 s.departingCount ++ be32 s.strandedTotal

/-- The shades of the eight segments in one byte, bit k for segment k. -/
def State.shadeBits (s : State) : Nat := flagBits ((List.range 8).map fun k => (s.shade k).shaded)

/-- The channel section of the dispatch status object, 72 bytes. The shade start of a SUNLIT channel is sent as
held: 0 before the first shadow, the last shadow's start after its end (DESIGN CHOICE, log 24). -/
def State.channelStatus (s : State) : List Byte :=
  ((List.range 8).map fun k =>
    let c := s.channel k
    be8 c.state.code ++ be8 (flag c.cand.isSome) ++ bytes32 c.shadeStart ++ be8 c.records.length
      ++ be8 c.depth ++ be8 c.overruns).flatten

/-- The dispatch status object, 168 bytes (R186). The countdown of a stopped Epoch Timer is sent as the 0 it holds
(R78, R79), where the general text of R201 gives stopped countdowns 0xFFFF (DESIGN CHOICE, log 25). -/
def State.dispatchStatus (s : State) : List Byte :=
  bytes32 s.ms
    ++ (be8 (flag s.sun.present) ++ vector16 s.sun.s ++ be16 s.sun.dni ++ be16 s.sun.atc)
    ++ (be8 (flag s.sweep.inFlight) ++ be16 s.sweep.remaining.length ++ optWord s.sweep.lastVisited
        ++ be16 s.sweep.count)
    ++ (be8 (flag s.epoch.running) ++ be16 s.epoch.period ++ be16 (s.epoch.pendingPeriod.getD 0)
        ++ be16 s.epoch.countdown)
    ++ (be8 s.rsg.stepMs ++ be8 s.rsg.dmax ++ [s.rsg.reg]
        ++ ((List.range 8).map fun k => optWord (s.timer k)).flatten)
    ++ (be8 s.link.missLimit ++ be8 s.link.devLimit ++ be16 s.link.ptol)
    ++ s.channelStatus
    ++ ((List.range 8).map fun k => (s.shade k).map)
    ++ (be8 s.shadeBits ++ be16 s.scu.shf ++ be8 s.scu.qual ++ be8 s.scu.shadeMax)
    ++ s.pauStatus
    ++ (be8 s.form.code ++ bytes24 (s.devents.setWidth 24) ++ bytes24 (s.dmask.setWidth 24))

/-- The protection status object, 40 bytes (R189). It carries the sensor states, segment shades and SHADE_MAX that
R189 and R201 list, where R139 says that nothing of the SCU but its events is visible on that port (DESIGN CHOICE,
log 26). -/
def State.protectionStatus (s : State) : List Byte :=
  bytes32 s.ms ++ s.pauStatus
    ++ ((List.range 8).map fun k => be8 (s.channel k).state.code).flatten
    ++ (be8 s.shadeBits ++ be8 s.scu.shadeMax ++ [s.pevents] ++ [s.pmask])

/-- The status object of a port (R186, R189). -/
def State.statusObject (s : State) : Port → List Byte
  | .dispatch => s.dispatchStatus
  | .protection => s.protectionStatus

/-- The object a read cursor names, as the state stands (R183). -/
def State.objectAt (s : State) : Cursor → List Byte
  | .heliostat i f => s.helObject f i
  | .zone z => s.zoneObject z
  | .segment k => s.segmentObject k
  | .maint k n => s.maintObject k n

/-- The cursor after an object: the next one of the read, or none after the last (R183). -/
def Cursor.next : Cursor → Option Cursor
  | .heliostat i f => if i < 1999 then some (.heliostat (i + 1) f) else none
  | .zone z => if z < 11 then some (.zone (z + 1)) else none
  | .segment k => if k < 7 then some (.segment (k + 1)) else none
  | .maint k n => if n < 15 then some (.maint k (n + 1)) else none

end Sys2Proof.Machine
end

