-- ==== Sys2Proof/Machine/Port.lean ====
section
/-! DEFINITION. Transaction framing (section 9.1): the select line, the delivery edge at which a command
is taken, and the fixing of further objects of a read. -/

namespace Sys2Proof.Machine

/-- A port's transaction record. -/
def State.txn (s : State) : Port → Txn
  | .dispatch => s.dpt
  | .protection => s.ppt

/-- Write a port's transaction record. -/
def State.setTxn (s : State) (p : Port) (t : Txn) : State :=
  match p with
  | .dispatch => { s with dpt := t }
  | .protection => { s with ppt := t }

/-- Whether a port's select line is low. -/
def State.selectLow (s : State) : Port → Bool
  | .dispatch => s.pins.dselLow
  | .protection => s.pins.pselLow

/-- Set the level of a port's select line. -/
def State.setSelect (s : State) (p : Port) (low : Bool) : State :=
  match p with
  | .dispatch => { s with pins := { s.pins with dselLow := low } }
  | .protection => { s with pins := { s.pins with pselLow := low } }

/-- A transaction can reach the delivery edge of this command: nothing of it has been received yet, or the bytes
received so far are the command's, or its last byte is in and the delivery edge is the next edge (R174, R175). In
the other phases the port takes no command: edges are ignored while DESELECTED (R173), and bytes after the
delivery edge are fill (R177). -/
def Txn.ready (t : Txn) (w : WireCmd) : Bool :=
  match t.phase with
  | .command => t.bitCount == 0
  | .operands => t.bitCount == 0 && t.command == some w.code && t.operands.isPrefixOf w.operands
  | .completion => t.completion.isNone && t.command == some w.code && t.operands == w.operands
  | .deselected | .data | .fill => false

/-! ### Bits and bytes -/

/-- The byte a port shifts out (R174, R175, R177): 0xFF in COMMAND, OPERANDS and FILL, and in COMPLETION until the
delivery edge; the code after it; the byte of the object at its position in DATA. -/
def Txn.outByte (t : Txn) : Byte :=
  match t.phase with
  | .completion => (t.completion.map Code.byte).getD 0xFF
  | .data => t.object.getD t.position 0xFF
  | .deselected | .command | .operands | .fill => 0xFF

/-- A falling edge of the clock presents the next bit of the byte shifted out, the most significant first (R173). -/
def Txn.present (t : Txn) : Txn := { t with high := false, out := t.outByte.getLsbD (7 - t.bitCount) }

/-- The port after the eighth rising edge of a byte (R174, R175, R177, R183): the command byte is classified, an
operand byte appended, the completion byte followed by the read's objects or by fill, and the last byte of the last
object by fill. -/
def Txn.byteDone (p : Port) (t : Txn) : Txn :=
  match t.phase with
  | .command =>
    { t with
        phase := if 0 < (operandLength p t.shift).getD 0 then .operands else .completion
        command := some t.shift
        shift := 0 }
  | .operands =>
    { t with
        phase := if t.operands.length + 1 < ((t.command.bind (operandLength p)).getD 0) then .operands else .completion
        operands := t.operands ++ [t.shift]
        shift := 0 }
  | .completion => { t with phase := if t.object.isEmpty then .fill else .data }
  | .data =>
    if t.position + 1 < t.object.length ∨ t.cursor.isSome = true then { t with position := t.position + 1 }
    else { t with phase := .fill, object := [], position := 0 }
  | .deselected | .fill => t

/-- The data input is read in COMMAND and OPERANDS alone (R173, R177). -/
def Txn.listens (t : Txn) : Bool := t.phase == .command || t.phase == .operands

/-- A rising edge of the clock (R173): the data input is sampled, bits most significant first, and the eighth edge
completes the byte. Edges are ignored while DESELECTED. -/
def Txn.rise (p : Port) (dsi : Bool) (t : Txn) : Txn :=
  if t.phase = .deselected ∨ t.high = true then t
  else
    let u := { t with
      high := true
      bitCount := (t.bitCount + 1) % 8
      shift := if t.listens then (t.shift <<< 1) ||| (if dsi then 1#8 else 0#8) else t.shift }
    if t.bitCount = 7 then u.byteDone p else u

/-- The transaction record between the last rising edge of a command's last byte and its delivery edge (R174):
the port has entered COMPLETION and no code is fixed. -/
def Txn.received (w : WireCmd) : Txn :=
  { Txn.reset with phase := .completion, command := some w.code, operands := w.operands, high := true }

/-- The transaction record right after a delivery edge (R175): the port is in COMPLETION with the code fixed and
its first bit presented, and for a taken read the first object is fixed and the cursor stands at the next. -/
def Txn.delivered (w : WireCmd) (c : Code) (first : Option (List Byte × Option Cursor)) : Txn :=
  { Txn.received w with
    completion := some c
    cursor := first.bind (·.2)
    object := (first.map (·.1)).getD []
    high := false
    out := c.byte.getLsbD 7 }

/-! ### The delivery edge -/

/-- Each protection transaction whose completion byte is delivered reloads the supervision countdown while
SUP_PERIOD is not 0, whatever its code (R168); dispatch transactions do not touch it. -/
def State.superviseDelivery (s : State) : Port → State
  | .dispatch => s
  | .protection =>
    if s.pau.supPeriod = 0 then s
    else { s with pau := { s.pau with supLeft := some (s.pau.supPeriod * 10) } }

/-- The delivery edge of port command `c` (R175), reached with all its bytes received: in one action the command acts
by `act`, its code is fixed, the supervision countdown is reloaded on the protection port, and for a taken read the
first object and the next cursor are fixed by `first` from the state after that (log 15). Where the port's transaction
cannot reach this delivery edge nothing happens (log 1). -/
def deliverWith (c : Instr) (act : State → State × Code)
    (first : State → Option (List Byte × Option Cursor)) (s : State) : State :=
  match wire c with
  | none => s
  | some w =>
    if (s.txn w.port).ready w then
      let r := act (s.setTxn w.port (Txn.received w))
      let s1 := r.1.superviseDelivery w.port
      s1.setTxn w.port (Txn.delivered w r.2 (if r.2 = .done then first s1 else none))
    else s

/-- The delivery edge of a command that returns no object. -/
def deliver (c : Instr) (act : State → State × Code) (s : State) : Outcome :=
  .next (deliverWith c act (fun _ => none) s)

/-- The delivery edge of a read of a sequence of objects from `start`, or refused with RANGE (R178, R183).
The count of draws advances, so that free bytes of this object are this object's own (log 7). -/
def deliverRead (c : Instr) (start : State → Option Cursor) (s : State) : Outcome :=
  .next (deliverWith c
    (fun t => match start t with
      | some _ => ({ t with draws := t.draws + 1 }, .done)
      | none => (t, .range))
    (fun t => (start t).map fun r => (t.objectAt r, r.next)) s)

/-- The delivery edge of a read of one object (R184, R186, R189), refused with RANGE where `ok` is false. -/
def deliverObject (c : Instr) (ok : Bool) (object : State → List Byte) (s : State) : Outcome :=
  .next (deliverWith c (fun t => (t, if ok then .done else .range)) (fun t => some (object t, none)) s)

/-- A falling edge of the select line: the port enters COMMAND, with the first bit of 0xFF presented (R173, R174). A
line that is already low cannot fall (R173, R187). -/
def State.selectFall (s : State) (p : Port) : State :=
  if s.selectLow p then s
  else (s.setSelect p true).setTxn p { Txn.reset with phase := .command }

/-- A rise of the select line: the transaction record returns to its reset values in any phase, and
nothing else changes (R176). -/
def State.selectRise (s : State) (p : Port) : State :=
  if s.selectLow p then (s.setSelect p false).setTxn p Txn.reset else s

/-- The falling edge that follows the last bit of what the port shifts out (R183): the next object of the read is
fixed and its first bit presented, or after the last the port enters FILL (R177). Before the delivery edge nothing
is fixed (log 1). -/
def State.fixObject (s : State) (p : Port) : State :=
  let t := s.txn p
  if t.completion.isSome = true ∧ (t.phase = .completion ∨ t.phase = .data) then
    match t.cursor with
    | some c =>
      let s1 := { s with draws := s.draws + 1 }
      s1.setTxn p { t with
        phase := .data, bitCount := 0, cursor := c.next, object := s1.objectAt c, position := 0 }.present
    | none => s.setTxn p { t with phase := .fill, bitCount := 0, object := [], position := 0 }.present
  else s

/-- DSO is driven while the select line is low (R173). -/
def State.dsoDriven (s : State) (p : Port) : Bool := s.selectLow p

/-- The level of a port's data output, none at high impedance (R173). A port that found its select line low when
reset ended stays DESELECTED and drives a level the spec does not state (log 20). -/
def State.dso (s : State) (p : Port) : Option Bool :=
  if !s.selectLow p then none
  else if (s.txn p).phase = .deselected then some (Config.freeLevel s.draws s.ms.toNat)
  else some (s.txn p).out

/-- TRANSACTION_BEGIN (R174). -/
def execTransactionBegin (port : Port) (s : State) : Outcome := .next (s.selectFall port)

/-- TRANSACTION_END (R176). -/
def execTransactionEnd (port : Port) (s : State) : Outcome := .next (s.selectRise port)

/-- TRANSACTION_DISCARD (R176): nothing of the part changes but the transaction record. -/
def execTransactionDiscard (port : Port) (s : State) : Outcome := .next (s.selectRise port)

/-- READ_OBJECT_FIX (R183). -/
def execReadObjectFix (port : Port) (s : State) : Outcome := .next (s.fixObject port)

/-- UNKNOWN_COMMAND (R174, R178): answered UNKNOWN, no operand taken, nothing changed. A code that names a
command of the port is not answered UNKNOWN. -/
def execUnknownCommand (port : Port) (code : Byte) (s : State) : Outcome :=
  if operandLength port code = none then deliver (.unknownCommand port code) (fun t => (t, .unknown)) s
  else .next s

/-- SET_FORM (R185). -/
def execSetForm (form : Byte) (s : State) : Outcome :=
  deliver (.setForm form) (fun t => match formOf form with
    | some f => ({ t with form := f }, .done)
    | none => (t, .range)) s

/-- READ_STATUS on either port (R186, R189). -/
def execReadStatus (port : Port) (s : State) : Outcome :=
  deliverObject (.readStatus port) true (fun t => t.statusObject port) s

/-- SET_MASK on either port (R194). -/
def execSetMask (port : Port) (events : BitVec 24) (s : State) : Outcome :=
  deliver (.setMask port events) (fun t => (t.writeMask port events, .done)) s

/-- ACK_EVENTS on either port (R195). -/
def execAckEvents (port : Port) (events : BitVec 24) (s : State) : Outcome :=
  deliver (.ackEvents port events) (fun t => (t.acknowledge port events, .done)) s

end Sys2Proof.Machine
end

