-- ==== Sys2Proof/Machine/Settle.lean ====
section
/-! DEFINITION. Settlement of a zone (section 3.5) and its triggers by shade and SHF (section 3.6). -/

namespace Sys2Proof.Machine

/-- The alternate a member shed from zone `z` is re-routed to, where every condition of R68 holds. The zone
the alternate lies in is neither the assigned point's nor the zone that sheds. -/
def State.reroutePoint (s : State) (z i : Nat) : Option Nat :=
  let h := s.hel i
  match s.alternateOf h with
  | none => none
  | some q =>
    let az := (s.point q).zone
    if !s.pau.defocus && !h.onAlternate && s.receiverOk q && az != s.assignedZone h && az != z
        && !(s.zone az).hold && s.committed az + s.pEff h ≤ s.limitW az
    then some q else none

/-- A shed member moves to its alternate `q`: it stays ON_TARGET, joins the alternate zone's tail and is
entered in its segment's urgent queue; the counts of R51 rise (R68, R61). -/
def State.reroute (s : State) (z i q : Nat) : State :=
  let h := s.hel i
  let s1 := s.modZone z fun zn => { zn with joinList := zn.joinList.erase i }
  let s2 := s1.modZone (s.point q).zone fun zn => { zn with joinList := zn.joinList ++ [i] }
  let s3 := match h.assignment with
    | some p => s2.modPoint p fun a => { a with diverted := a.diverted + 1 }
    | none => s2
  let s4 := s3.modPoint q fun a => { a with altLoad := a.altLoad + 1 }
  (s4.modHel i fun h => { h with onAlternate := true }).urgentAdd h.segment i

/-- One turn of the shed step: the newest member leaves the join list for its alternate (R68), or for the
tail of its assigned zone's queue as a departure (R69). -/
def State.shedOne (s : State) (z : Nat) : State :=
  match (s.zone z).joinList.getLast? with
  | none => s
  | some i =>
    match s.reroutePoint z i with
    | some q => s.reroute z i q
    | none => (s.departFrom z i .queued).enqueue i

/-- The shed step: turns while the zone is above its limit and its join list is not empty (R67). -/
def shedLoop : Nat → Nat → State → State
  | 0, _, s => s
  | n + 1, z, s =>
    if s.overLimit z && !(s.zone z).joinList.isEmpty then shedLoop n z (s.shedOne z) else s

/-- The head of zone `z`'s queue may be granted: its P_valid is set and there is room for its P_eff (R71). -/
def State.grantable (s : State) (z i : Nat) : Bool :=
  (s.hel i).pValid && s.committed z + s.pEff (s.hel i) ≤ s.limitW z

/-- A grant: the head of the queue becomes ON_TARGET at the join list's tail on its assigned point, with
its deviation count 0, and leaves the departure set (R71, R63). -/
def State.grant (s : State) (z i : Nat) : State :=
  let s1 := s.modZone z fun zn => { zn with queue := zn.queue.tail, joinList := zn.joinList ++ [i] }
  (s1.modHel i fun h => { h with state := .onTarget, onAlternate := false, dev := 0 }).clearDeparture i

/-- The grant step, with at most `n` grants; the flag says that it stopped at a head that was not
granted (R71). -/
def grantLoop : Nat → Nat → State → State × Bool
  | 0, _, s => (s, false)
  | n + 1, z, s =>
    match (s.zone z).queue with
    | [] => (s, false)
    | i :: _ => if s.grantable z i then grantLoop n z (s.grant z i) else (s, true)

/-- The over step: the zone becomes OVER, and ZONE_OVER is raised where it was not OVER (R70). -/
def State.overStep (s : State) (z : Nat) (was : ZState) : State :=
  let s1 := s.modZone z fun zn => { zn with state := .over }
  if was = .over then s1 else s1.raiseBoth .zoneOver .zoneOver

/-- The grant and closing steps of a zone within its limit (R71, R72). -/
def State.grantStep (s : State) (z : Nat) : State :=
  if (s.zone z).hold then s.modZone z fun zn => { zn with state := .held }
  else if s.stowInEffect || s.pau.defocus then s.modZone z fun zn => { zn with state := .normal }
  else
    let r := grantLoop (s.zone z).rjMax z s
    r.1.modZone z fun zn => { zn with state := if r.2 then .full else .normal }

/-- Settlement of one zone: shed, over, grant and closing steps in that order (R66 to R72). -/
def State.settle (s : State) (z : Nat) : State :=
  let sheds := s.overLimit z && !(s.zone z).joinList.isEmpty
  let s1 := shedLoop (s.zone z).joinList.length z s
  let s2 := if sheds then s1.raiseBoth .zoneShed .zoneShed else s1
  if s2.overLimit z then s2.overStep z (s.zone z).state else s2.grantStep z

/-- Several zones settled one at a time, in the order given (R66). -/
def State.settleList (s : State) (zs : List Nat) : State := zs.foldl State.settle s

/-- All twelve zones in ascending order (R73, R76). -/
def State.settleAll (s : State) : State := s.settleList (List.range 12)

/-- The zones concerned with a set of segments: those whose join list or rejoin queue holds a heliostat of
one of them (R74, R75). -/
def State.concerned (s : State) (segs : List Nat) : List Nat :=
  (List.range 12).filter fun z =>
    ((s.zone z).joinList ++ (s.zone z).queue).any fun i => (s.hel i).segment ∈ segs

/-- The shade settlement of one segment: its shade changes, then the zones concerned settle (R74). -/
def State.shadeSettle (s : State) (k : Nat) (shaded : Bool) : State :=
  let s1 := s.modShade k fun g => { g with shaded := shaded }
  s1.settleList (s1.concerned [k])

/-- The shade of segment `k` that its map and the sensor states give: SHADED when the map holds at least
one SHADED sensor (R149). -/
def State.derivedShade (s : State) (k : Nat) : Bool :=
  (List.range 8).any fun j => (s.shade k).map.getLsbD j && (s.channel j).state == .shaded

/-- Re-derive a segment's shade; a change is handed to the zone budget (R149, R150). -/
def State.rederive (s : State) (k : Nat) : State :=
  if s.derivedShade k = (s.shade k).shaded then s else s.shadeSettle k (s.derivedShade k)

/-- Re-derive the segments of a list in its order, each change settled before the next (R150). -/
def State.rederiveList (s : State) (ks : List Nat) : State := ks.foldl State.rederive s

/-- The segments whose map holds sensor `j`, ascending (R141). -/
def State.mappedTo (s : State) (j : Nat) : List Nat :=
  (List.range 8).filter fun k => (s.shade k).map.getLsbD j

/-- The segments that are SHADED, ascending. -/
def State.shadedSegs (s : State) : List Nat := (List.range 8).filter fun k => (s.shade k).shaded

/-- A new SHF while a segment is shaded: one settlement of every zone concerned with a shaded segment
(R75). -/
def State.shfSettle (s : State) : State :=
  if s.shadedSegs.isEmpty then s else s.settleList (s.concerned s.shadedSegs)

end Sys2Proof.Machine
end

