-- ==== Sys2Proof/Machine/Budget.lean ====
section
/-! DEFINITION. The commands of the aim point table and of the zone records (chapter 3). -/

namespace Sys2Proof.Machine

/-- Check 4 of R49: an alternate that is given names another receiver point that is valid and lies in
another zone than the one being written. -/
def State.alternateOk (s : State) (p zone : Nat) : Option Nat → Bool
  | none => true
  | some q => q != p && s.receiverOk q && (s.point q).zone != zone

/-- The checks of WRITE_AIMPOINT in their order (R49); `none` where it passes. -/
def State.aimpointRefusal (s : State) (p : Nat) (valid : Bool) (pos : Vec3) (zone : Nat) (alt : Option Nat) :
    Option Code :=
  let a := s.point p
  if 111 < p then some .range
  else if valid && !positionOk pos then some .range
  else if 95 < p then none
  else if valid && 11 < zone then some .range
  else if valid && !s.alternateOk p zone alt then some .range
  else if a.valid && (!valid || zone != a.zone) && (0 < a.inUse || 0 < a.altLoad) then some .state
  else if (if valid then alt else none) != a.alternate && 0 < a.diverted then some .state
  else none

/-- The effects of a WRITE_AIMPOINT that passes R49 (R50). A standby point holds no zone and no alternate. That a change
of a valid standby point's position alone leaves the target tags of the heliostats that wait at it as they are, so that
they match and no solve is asked for before the next sweep or solve, is a DESIGN CHOICE (log 29). -/
def State.writePoint (s : State) (p : Nat) (valid : Bool) (pos : Vec3) (zone : Nat) (alt : Option Nat) : State :=
  s.modPoint p fun a =>
    if !valid then { a with valid := false, alternate := none }
    else if 95 < p then { a with valid := true, pos := pos }
    else { a with valid := true, pos := pos, zone := zone, alternate := alt }

/-- WRITE_AIMPOINT (R49, R50). -/
def execWriteAimpoint (point valid : Byte) (x y z : BitVec 32) (zone alternate : Byte) (s : State) : Outcome :=
  let pos : Vec3 := ⟨x.toInt, y.toInt, z.toInt⟩
  let v := valid != 0
  let alt := pointOperand alternate
  deliver (.writeAimpoint point valid x y z zone alternate) (fun t =>
    match t.aimpointRefusal point.toNat v pos zone.toNat alt with
    | some c => (t, c)
    | none => (t.writePoint point.toNat v pos zone.toNat alt, .done)) s

/-- A zone operand above 11 is refused with RANGE (R53, R55, R56). -/
def withZone (zone : Byte) (act : Nat → State → State × Code) (s : State) : State × Code :=
  if 11 < zone.toNat then (s, .range) else act zone.toNat s

/-- A standby operand names a standby point or NONE (R53, R181). -/
def standbyOperandOk (b : Byte) : Bool := b == 255 || (96 ≤ b.toNat && b.toNat ≤ 111)

/-- SET_ZONE (R53, R54): the dispatch limit and the standby point are written, and the zone settles. -/
def execSetZone (zone : Byte) (limit : BitVec 16) (standby : Byte) (s : State) : Outcome :=
  deliver (.setZone zone limit standby) (withZone zone fun z t =>
    if !standbyOperandOk standby then (t, .range)
    else
      let t1 := t.modZone z fun zn => { zn with dispatchLimit := limit.toNat, standby := pointOperand standby }
      ((t1.settle z).refreshClear, .done)) s

/-- SET_PROTECT_LIMIT (R53). -/
def execSetProtectLimit (zone : Byte) (limit : BitVec 16) (s : State) : Outcome :=
  deliver (.setProtectLimit zone limit) (withZone zone fun z t =>
    let t1 := t.modZone z fun zn => { zn with protectLimit := limit.toNat }
    ((t1.settle z).refreshClear, .done)) s

/-- HOLD (R55, R57): a zone that is not OVER becomes HELD at once; nothing settles. -/
def execHold (zone : Byte) (s : State) : Outcome :=
  deliver (.hold zone) (withZone zone fun z t =>
    if (t.zone z).hold then (t, .done)
    else (t.modZone z fun zn => { zn with hold := true, state := if zn.state = .over then .over else .held },
      .done)) s

/-- UNHOLD (R55, R76): a hold that is cleared settles all twelve zones. -/
def execUnhold (zone : Byte) (s : State) : Outcome :=
  deliver (.unhold zone) (withZone zone fun z t =>
    if (t.zone z).hold then
      (((t.modZone z fun zn => { zn with hold := false }).settleAll).refreshClear, .done)
    else (t, .done)) s

/-- SET_RAMP (R56): RJ_MAX limited to 1..32; nothing settles. -/
def execSetRamp (zone value : Byte) (s : State) : Outcome :=
  deliver (.setRamp zone value) (withZone zone fun z t =>
    (t.modZone z fun zn => { zn with rjMax := clamp 1 32 value.toNat },
      takenCode (clamp 1 32 value.toNat != value.toNat))) s

/-- READ_ZONE on either port (R183, R189). -/
def execReadZone (port : Port) (first : Byte) (s : State) : Outcome :=
  deliverRead (.readZone port first) (fun _ => if first.toNat ≤ 11 then some (.zone first.toNat) else none) s

/-- READ_JOIN_LIST (R184). -/
def execReadJoinList (zone : Byte) (s : State) : Outcome :=
  deliverObject (.readJoinList zone) (zone.toNat ≤ 11)
    (fun t => listObject zone.toNat (t.zone zone.toNat).joinList) s

/-- READ_QUEUE (R184). -/
def execReadQueue (zone : Byte) (s : State) : Outcome :=
  deliverObject (.readQueue zone) (zone.toNat ≤ 11)
    (fun t => listObject zone.toNat (t.zone zone.toNat).queue) s

end Sys2Proof.Machine
end

