-- ==== Sys2Proof/Machine/Heliostat.lean ====
section
/-! DEFINITION. The commands of the heliostat table (section 2.4). Each action answers the state and the
completion code; a refused command changes nothing (R31). -/

namespace Sys2Proof.Machine

/-- The checks every command of the table but WRITE_HELIOSTAT and READ_HELIOSTAT begins with: an index above
1999 is refused with RANGE, an absent record with STATE (R31). -/
def withRecord (index : BitVec 16) (act : Nat → Hel → State → State × Code) (s : State) : State × Code :=
  if 1999 < index.toNat then (s, .range)
  else if (s.hel index.toNat).state = .absent then (s, .state)
  else act index.toNat (s.hel index.toNat) s

/-- The identity operands of WRITE_HELIOSTAT. -/
structure Identity where
  segment : Nat
  drop : Nat
  pos : Vec3
  area : Nat
  refl : Nat
  deriving DecidableEq, Repr

/-- Check 1 of R32: the states and conditions in which a record may be written. -/
def Hel.writable (h : Hel) : Bool :=
  (h.state == .absent || h.state == .excluded || (h.state == .stowed && h.assignment.isNone)) && !h.departing

/-- Check 2 of R32: every operand lies in its range. -/
def Identity.inRange (d : Identity) : Bool :=
  d.segment ≤ 7 && 1 ≤ d.drop && d.drop ≤ 250 && positionOk d.pos && 1 ≤ d.area && d.refl ≤ 1024

/-- The other present records of a segment (R32). -/
def State.othersIn (s : State) (k i : Nat) : List Nat :=
  s.present.filter fun j => j != i && (s.hel j).segment == k

/-- The checks of WRITE_HELIOSTAT after the index check, in their order (R32); `none` where it passes. -/
def State.writeRefusal (s : State) (i : Nat) (d : Identity) : Option Code :=
  if !(s.hel i).writable then some .state
  else if !d.inRange then some .range
  else if 250 ≤ (s.othersIn d.segment i).length then some .full
  else if (s.othersIn d.segment i).any fun j => (s.hel j).drop == d.drop then some .duplicate
  else none

/-- The identity fields written from the operands (R33). -/
def Hel.withIdentity (h : Hel) (d : Identity) : Hel :=
  { h with segment := d.segment, drop := d.drop, pos := d.pos, area := d.area, refl := d.refl }

/-- A write from ABSENT: the empty record with the identity fields, OFFLINE (R33). -/
def Hel.fresh (d : Identity) : Hel := { Hel.empty.withIdentity d with state := .offline }

/-- A write of a present record: identity fields, tag, flags, P_valid and sweep mark (R33). -/
def Hel.rewritten (h : Hel) (d : Identity) : Hel :=
  { h.withIdentity d with
      tag := { h.tag with valid := false }
      geometry := false
      noSolution := false
      pValid := false
      mark := false }

/-- What a change of segment or drop does besides (R33, R24). -/
def Hel.readdressed (h : Hel) : Hel :=
  { h with
      seq := 0
      miss := 0
      dev := 0
      nRep := none
      motion := .none
      fault := 0
      state := if h.state = .stowed then .offline else h.state }

/-- The effects of a WRITE_HELIOSTAT that passes R32 (R33, R85, R113, R122). -/
def State.writeRecord (s : State) (i : Nat) (d : Identity) : State :=
  let h := s.hel i
  if h.state = .absent then s.setHel i (Hel.fresh d)
  else
    let s1 := s.unsweep i
    if h.segment = d.segment ∧ h.drop = d.drop then s1.setHel i (h.rewritten d)
    else ((s1.orphan h.segment i).urgentRemove h.segment i).setHel i (h.rewritten d).readdressed

/-- WRITE_HELIOSTAT (R31, R32, R33). -/
def execWriteHeliostat (index : BitVec 16) (segment drop : Byte) (x y z : BitVec 32) (area refl : BitVec 16)
    (s : State) : Outcome :=
  let d : Identity := ⟨segment.toNat, drop.toNat, ⟨x.toInt, y.toInt, z.toInt⟩, area.toNat, refl.toNat⟩
  deliver (.writeHeliostat index segment drop x y z area refl) (fun t =>
    if 1999 < index.toNat then (t, .range)
    else match t.writeRefusal index.toNat d with
      | some c => (t, c)
      | none => (t.writeRecord index.toNat d, .done)) s

/-- The assignment written or removed, with the in-use counts of R23. -/
def State.writeAssignment (s : State) (i : Nat) (p : Option Nat) : State :=
  let s1 := match (s.hel i).assignment with
    | some q => s.modPoint q fun a => { a with inUse := a.inUse - 1 }
    | none => s
  let s2 := match p with
    | some q => s1.modPoint q fun a => { a with inUse := a.inUse + 1 }
    | none => s1
  s2.modHel i fun h => { h with assignment := p }

/-- The fields a taken ASSIGN clears (R35). -/
def Hel.assignCleared (h : Hel) : Hel :=
  { h with pValid := false, mark := false, onAlternate := false, trackingError := false }

/-- The part of an ASSIGN's move that leaves the old collection, under the old assignment (R36). -/
def State.leaveForAssign (s : State) (i : Nat) : State :=
  match (s.hel i).state with
  | .onTarget => s.depart i .stowed
  | .queued => s.dequeue i .stowed
  | .standby => s.modHel i fun h => { h with state := .stowed }
  | .stowed | .offline | .faulted | .excluded | .absent => s

/-- The effects of an ASSIGN that passes R35 (R36, R37, R85). -/
def State.assignTo (s : State) (i : Nat) (p : Option Nat) : State :=
  let moves := !s.stowInEffect
  let s1 := if moves then s.leaveForAssign i else s
  let s2 := ((s1.writeAssignment i p).modHel i Hel.assignCleared).unsweep i
  if moves && p.isSome && (s2.hel i).state == .stowed then s2.enqueue i else s2

/-- ASSIGN (R35, R36, R37). -/
def execAssign (index : BitVec 16) (point : Byte) (s : State) : Outcome :=
  deliver (.assign index point) (withRecord index fun i h t =>
    if h.state = .excluded then (t, .state)
    else match pointOperand point with
      | some p => if t.receiverOk p then ((t.assignTo i (some p)).refreshClear, .done) else (t, .range)
      | none => ((t.assignTo i none).refreshClear, .done)) s

/-- PARK (R38). -/
def execPark (index : BitVec 16) (s : State) : Outcome :=
  deliver (.park index) (withRecord index fun i h t =>
    match h.state with
    | .queued => (t.dequeue i .standby, .done)
    | .onTarget => ((t.depart i .standby).refreshClear, .done)
    | .absent | .offline | .stowed | .standby | .excluded | .faulted => (t, .state)) s

/-- EXCLUDE (R39, R122). -/
def execExclude (index : BitVec 16) (s : State) : Outcome :=
  deliver (.exclude index) (withRecord index fun i h t =>
    if h.state ≠ .stowed ∧ h.state ≠ .standby ∧ h.state ≠ .offline then (t, .state)
    else if h.stranded.isSome || h.departing then (t, .state)
    else ((t.urgentRemove h.segment i).modHel i fun h => { h with state := .excluded }, .done)) s

/-- INCLUDE (R40). -/
def execIncludeHel (index : BitVec 16) (s : State) : Outcome :=
  deliver (.includeHel index) (withRecord index fun i h t =>
    if h.state = .excluded then (t.queueOrStow i, .done) else (t, .state)) s

/-- CLEAR_FAULT (R41). -/
def execClearFault (index : BitVec 16) (s : State) : Outcome :=
  deliver (.clearFault index) (withRecord index fun i h t =>
    if h.state = .faulted then
      ((((t.releaseFlux i).clearDeparture i).modHel i fun h => { h with state := .offline, dev := 0 }).refreshClear,
        .done)
    else (t, .state)) s

/-- RELEASE_STRANDED (R42). -/
def execReleaseStranded (index : BitVec 16) (s : State) : Outcome :=
  deliver (.releaseStranded index) (withRecord index fun i h t =>
    if h.state ≠ .offline ∧ h.state ≠ .faulted then (t, .state)
    else if h.stranded.isNone then (t, .state)
    else (((t.releaseFlux i).clearDeparture i).refreshClear, .done)) s

/-- The effects of a RETIRE that passes its checks (R34, R63, R85, R113, R122). -/
def State.retireRecord (s : State) (i : Nat) : State :=
  let k := (s.hel i).segment
  let s1 := (s.writeAssignment i none).clearDeparture i
  let s2 := ((s1.urgentRemove k i).orphan k i).unsweep i
  s2.setHel i Hel.empty

/-- RETIRE (R34). -/
def execRetire (index : BitVec 16) (s : State) : Outcome :=
  deliver (.retire index) (withRecord index fun i h t =>
    if h.state ≠ .stowed ∧ h.state ≠ .excluded ∧ h.state ≠ .offline then (t, .state)
    else if h.stranded.isSome then (t, .state)
    else ((t.retireRecord i).refreshClear, .done)) s

/-- READ_HELIOSTAT (R183, R185): records from the first index upward, in the readout form held at the
delivery edge. -/
def execReadHeliostat (first : BitVec 16) (s : State) : Outcome :=
  deliverRead (.readHeliostat first) (fun t =>
    if first.toNat ≤ 1999 then some (.heliostat first.toNat t.form) else none) s

end Sys2Proof.Machine
end

