-- ==== Sys2Proof/Machine/Aim.lean ====
section
/-! DEFINITION. The aim solution (section 1.3) and the pointing check (section 1.5), in exact integer
arithmetic. -/

namespace Sys2Proof.Machine

/-- The integer square root found bit by bit: `r` grown by each power of two below 2^k that keeps its
square at most `n`. -/
def isqrtBits : Nat → Nat → Nat → Nat
  | 0, _, r => r
  | k + 1, n, r => isqrtBits k n (if (r + 2 ^ k) * (r + 2 ^ k) ≤ n then r + 2 ^ k else r)

/-- The integer square root: the greatest integer whose square does not exceed `n` (00_scope, Numbers). -/
def isqrt (n : Nat) : Nat := isqrtBits (Nat.log2 n / 2 + 1) n 0

/-- The length of a vector, rounded down (R8, R10). -/
def Vec3.length (v : Vec3) : Nat :=
  isqrt (v.x.natAbs * v.x.natAbs + v.y.natAbs * v.y.natAbs + v.z.natAbs * v.z.natAbs)

/-- One component normalised: its magnitude times 32768 over the length, rounded to nearest with a half
away from zero, 32768 stored as 32767, with the sign of the component (R9, R11, R2). -/
def unitComponent (len : Nat) (d : Int) : Int :=
  let m := min ((2 * (d.natAbs * 32768) + len) / (2 * len)) 32767
  if d < 0 then -(m : Int) else m

/-- A vector normalised by a length (R9, R11). -/
def Vec3.unit (len : Nat) (v : Vec3) : Vec3 :=
  ⟨unitComponent len v.x, unitComponent len v.y, unitComponent len v.z⟩

/-- Component-wise difference A − H (R8). -/
def Vec3.sub (a h : Vec3) : Vec3 := ⟨a.x - h.x, a.y - h.y, a.z - h.z⟩

/-- Component-wise sum S + T (R10). -/
def Vec3.add (a b : Vec3) : Vec3 := ⟨a.x + b.x, a.y + b.y, a.z + b.z⟩

/-- The cosine factor: M limited to 65535 (R10). -/
def cosineFactor (m : Nat) : Nat := min m 65535

/-- The attenuation factor of a slant range and ATC (R12): 65536 less the loss, not below 0. -/
def attenuation (len atc : Nat) : Nat := 65536 - len * atc / 10000

/-- The contribution in watts, each of the five steps rounded down before the next (R13). -/
def contribution (area dni refl c a : Nat) : Nat :=
  let e1 := area * dni
  let e2 := e1 * refl / 1024
  let e3 := e2 * c / 65536
  let e4 := e3 * a / 65536
  e4 / 100

/-- The DNI stage 4 uses: the snapshot's where its Sz is above 0, else 0 (R13). -/
def Sun.usedDni (u : Sun) : Nat := if 0 < u.s.z then u.dni else 0

/-- How a computation ends (R7, R8, R10, R11). -/
inductive Solved where
  /-- Toward STOW, or made without a sun: no stage runs. -/
  | unlit
  /-- The slant range is below 1000 cm. -/
  | geometry
  /-- The bisector is shorter than 2048. -/
  | noSolution
  /-- The normal and the contribution. -/
  | found (normal : Vec3) (p : Nat)
  deriving DecidableEq, Repr

/-- One computation for a heliostat toward a point's position, or toward STOW (`none`), with the snapshot
(R7 to R13). -/
def solveToward (snap : Option Sun) (h : Hel) (aim : Option Vec3) : Solved :=
  match snap, aim with
  | some u, some a =>
    if u.present then
      let d := a.sub h.pos
      let len := d.length
      if len < 1000 then .geometry
      else
        let n := u.s.add (d.unit len)
        let m := n.length
        if m < 2048 then .noSolution
        else .found (n.unit m)
          (contribution h.area u.usedDni h.refl (cosineFactor m) (attenuation len u.atc))
    else .unlit
  | _, _ => .unlit

/-- The position of a target, read from the aim point table when the computation runs (R1, R7). -/
def State.targetPos (s : State) : Target → Option Vec3
  | .stow => none
  | .point p => some (s.point p).pos

/-- One computation for a record toward a target, with the state's snapshot (R6, R89). -/
def State.compute (s : State) (h : Hel) (t : Target) : Solved :=
  solveToward s.snapshot h (s.targetPos t)

/-- The normal product written to N_cmd and the target tag (R16). -/
def Hel.writeNormal (h : Hel) (t : Target) : Solved → Hel
  | .unlit => { h with nCmd := stowNormal, tag := ⟨t, true⟩ }
  | .geometry => { h with tag := ⟨t, true⟩ }
  | .noSolution => { h with tag := ⟨t, true⟩ }
  | .found n _ => { h with nCmd := n, tag := ⟨t, true⟩ }

/-- The contribution product written to P_new (R17). -/
def Hel.writeContribution (h : Hel) : Solved → Hel
  | .unlit => { h with pNew := 0, pNewValid := false }
  | .geometry => { h with pNew := 0, pNewValid := false }
  | .noSolution => { h with pNew := 0, pNewValid := true }
  | .found _ p => { h with pNew := p, pNewValid := true }

/-- The budget point of a record at its visit (R84). -/
def State.budgetPoint (s : State) (h : Hel) : Option Nat :=
  match h.state with
  | .onTarget => s.aimedPoint h
  | .offline | .stowed | .queued | .standby | .excluded | .faulted | .absent => h.assignment

/-- The contribution computation of a visit: none where the budget point is none; the normal's own where
the budget point is the current target; a second one otherwise (R84). -/
def State.budgetProduct (s : State) (h : Hel) (normal : Solved) : Solved :=
  match s.budgetPoint h with
  | none => .unlit
  | some b => if s.currentTarget h = .point b then normal else s.compute h (.point b)

/-- What a sweep visit makes of a record (R83, R84, R16, R17, R18): normal product, contribution product,
flags and sweep mark. -/
def State.visited (s : State) (h : Hel) : Hel :=
  let t := s.currentTarget h
  let n := s.compute h t
  let c := s.budgetProduct h n
  { (h.writeNormal t n).writeContribution c with
      geometry := n == .geometry || c == .geometry
      noSolution := n == .noSolution || c == .noSolution
      mark := true }

/-- What an on-demand solve makes of a record (R89, R16, R18): the normal product, and the flags whose
condition was met set. -/
def State.solved (s : State) (h : Hel) : Hel :=
  let t := s.currentTarget h
  let n := s.compute h t
  { h.writeNormal t n with
      geometry := h.geometry || n == .geometry
      noSolution := h.noSolution || n == .noSolution }

/-- The dot product of the pointing check, rounded toward minus infinity (R19). -/
def dotProduct (n r : Vec3) : Int := (n.x * r.x + n.y * r.y + n.z * r.z) / 32768

/-- The heliostat deviates when the dot product is below PTOL (R19). -/
def deviates (ptol : Nat) (n r : Vec3) : Bool := dotProduct n r < ptol

end Sys2Proof.Machine
end

