-- ==== Sys2Proof/Machine/Drive.lean ====
section
/-! DEFINITION. Outcomes of the drive dialogue on a heliostat record (section 2.5, section 5.6), frames and
their bytes (sections 5.2, 5.3, 11.1). -/

namespace Sys2Proof.Machine

/-! ### The frame check and the frame bytes -/

/-- One place of the CRC register's shift, polynomial 0x8BB7 (R101). -/
def crcShift (r : BitVec 16) : BitVec 16 := if r.msb then (r <<< 1) ^^^ 0x8BB7#16 else r <<< 1

/-- One covered byte into the CRC register (R101). -/
def crcByte (r : BitVec 16) (b : Byte) : BitVec 16 :=
  (List.range 8).foldl (fun r _ => crcShift r) (r ^^^ ((b.setWidth 16) <<< 8))

/-- The CRC over a list of covered bytes, the register starting at 0xFFFF (R101). -/
def crc (bytes : List Byte) : BitVec 16 := bytes.foldl crcByte 0xFFFF#16

/-- The nine covered bytes of a command frame, offsets 2..10 (R199). -/
def Frame.covered (f : Frame) : List Byte :=
  be8 f.drop ++ [(f.kind.map Kind.code).getD 0] ++ be8 f.seq ++ f.payload

/-- The thirteen bytes of a command frame, before complementing (R199). -/
def Frame.bytes (f : Frame) : List Byte := [0x7E, 0xA5] ++ f.covered ++ bytes16 (crc f.covered)

/-- FLk_DE: high while a frame's bytes are on the line (R102, R114). -/
def Seg.driverEnable (g : Seg) : Bool :=
  match g.frame with
  | some f => f.phase == .sending
  | none => false

/-- The bytes a segment sends on FLk_TX for its frame: complemented while the latch is INVERTED (R101, R135). -/
def Seg.txBytes (g : Seg) : List Byte :=
  match g.frame with
  | some f => if f.phase = .sending then (if g.inverted then f.bytes.map (~~~·) else f.bytes) else []
  | none => []

/-- One bit on a field link's transmit line (R102). Input and output levels lie outside the spec's scope (00_scope,
About this manual), so a bit is named by what it is. -/
inductive LineBit where
  | start
  | data (value : Bool)
  | stop
  deriving DecidableEq, Repr

/-- A byte on the line: a start bit, eight data bits least significant first and a stop bit (R102). -/
def lineByte (b : Byte) : List LineBit :=
  .start :: ((List.range 8).map fun j => .data (b.getLsbD j)) ++ [.stop]

/-- The line bits a segment sends on FLk_TX for its frame, the first one sent at the head (R102). -/
def Seg.txBits (g : Seg) : List LineBit := g.txBytes.flatMap lineByte

/-- The line bit on FLk_TX `us` microseconds after a segment's frame began, at the rate the frame was fixed with
(R102); `none` once the last stop bit has ended, and where nothing is sent. -/
def Seg.txAt (g : Seg) (us : Nat) : Option LineBit :=
  g.frame.bind fun f => f.rate.bind fun r => g.txBits[us / r.bitUs]?

/-- The transmission an abandonment stops: the frame that is being sent, where one is (R114). -/
def Seg.cutOff (g : Seg) : Option Cut :=
  if g.driverEnable then (g.frame.bind (·.rate)).map fun r => ⟨g.txBytes, r⟩ else g.cut

/-- The line bit on FLk_TX `us` microseconds after a stopped transmission began, where it was stopped `stopUs`
microseconds after it began: it goes on to the end of the byte under way (R114). -/
def Seg.txRest (g : Seg) (stopUs us : Nat) : Option LineBit :=
  g.cut.bind fun c =>
    if us / c.rate.bytesUs 1 ≤ stopUs / c.rate.bytesUs 1 then (c.bytes.flatMap lineByte)[us / c.rate.bitUs]? else none

/-- The payload of a maintenance frame, and the normal a MAINT_MOVE carries (R98, R199). -/
def Slot.payload (r : Slot) : List Byte × Option Vec3 :=
  match r.action, r.ops with
  | .move, [x1, x0, y1, y0, z1, z0] =>
    let v := components (x1 ++ x0) (y1 ++ y0) (z1 ++ z0)
    (vector16 v, some v)
  | .param, p :: v1 :: v0 :: _ => ([p, v1, v0, 0, 0, 0], none)
  | _, _ => ([0, 0, 0, 0, 0, 0], none)

/-! ### Misses -/

/-- The move to OFFLINE from each state the miss limit acts on (R45). -/
def State.goOffline (s : State) (i : Nat) : State :=
  match (s.hel i).state with
  | .onTarget => (s.departStranding i .offline).raiseD .heliostatOffline
  | .queued => (s.dequeue i .offline).raiseD .heliostatOffline
  | .stowed | .standby => (s.modHel i fun h => { h with state := .offline }).raiseD .heliostatOffline
  | .offline | .faulted | .excluded | .absent => s

/-- One miss of a record: its count rises, stopping at 15, and the miss limit is applied (R24, R45). -/
def State.missOne (s : State) (i : Nat) : State :=
  let n := min 15 ((s.hel i).miss + 1)
  let s1 := s.modHel i fun h => { h with miss := n }
  if s.link.missLimit ≤ n then s1.goOffline i else s1

/-- The accrual of the given LOCKED or DISABLED segments at a sweep completion: one miss to each of their
present heliostats, in ascending index order (R133). -/
def State.accrue (s : State) (ks : List Nat) : State :=
  let dead := ks.filter fun k => (s.seg k).state == .locked || (s.seg k).state == .disabled
  (s.present.filter fun i => (s.hel i).segment ∈ dead).foldl State.missOne s

/-! ### Good replies -/

/-- A good reply: motion, fault code and reported normal (R105, R109). -/
structure GoodReply where
  motion : Motion
  fault : Nat
  normal : Vec3
  deriving DecidableEq, Repr

/-- A fault report: a fault code of 1..15, or motion HALTED (R110). -/
def GoodReply.faulty (r : GoodReply) : Bool := r.fault != 0 || r.motion == .halted

/-- Step 1 of R109: the drive status fields, and the miss count 0. -/
def State.driveStatus (s : State) (i : Nat) (r : GoodReply) : State :=
  s.modHel i fun h => { h with nRep := some r.normal, motion := r.motion, fault := r.fault, miss := 0 }

/-- Step 2 of R109: the departure acknowledgement (R62, R112). It is given to a departing heliostat by a
reply with fault code 0 to a frame built for an off-receiver target. An OFFLINE heliostat's stranded
amount is released with it. -/
def State.acknowledgeReply (s : State) (i : Nat) (target : Option Target) (r : GoodReply) : State :=
  let h := s.hel i
  let off := match target with
    | some t => t.offReceiver
    | none => false
  if h.departing && r.fault == 0 && off then
    let s1 := s.clearDeparture i
    if h.state = .offline then s1.releaseFlux i else s1
  else s

/-- The move to FAULTED of a fault report, by the state found (R44). -/
def State.goFaulted (s : State) (i : Nat) : State :=
  match (s.hel i).state with
  | .onTarget => (s.departStranding i .faulted).raiseBoth .heliostatFault .heliostatFault
  | .queued => (s.dequeue i .faulted).raiseBoth .heliostatFault .heliostatFault
  | .offline | .stowed | .standby =>
    (s.modHel i fun h => { h with state := .faulted }).raiseBoth .heliostatFault .heliostatFault
  | .faulted | .excluded | .absent => s

/-- The deviation limit takes an ON_TARGET heliostat to STANDBY (R46). -/
def State.goTrackingError (s : State) (i : Nat) : State :=
  ((s.depart i .standby).modHel i fun h => { h with trackingError := true, dev := 0 }).raiseD .trackingError

/-- The deviation count of a good reply to a frame that carried a normal (R111, R46). -/
def State.pointing (s : State) (i : Nat) (carried : Option Vec3) (r : GoodReply) : State :=
  match carried with
  | none => s
  | some n =>
    if deviates s.link.ptol n r.normal then
      let d := min 15 ((s.hel i).dev + 1)
      let s1 := s.modHel i fun h => { h with dev := d }
      if s.link.devLimit ≤ d then s1.goTrackingError i else s1
    else s

/-- Step 3 of R109: fault report first; otherwise first answer of an OFFLINE heliostat with no stranded
field (R43), or the deviation count of an ON_TARGET one. -/
def State.consequences (s : State) (i : Nat) (carried : Option Vec3) (r : GoodReply) : State :=
  if r.faulty then s.goFaulted i
  else match (s.hel i).state with
    | .offline => if (s.hel i).stranded.isNone then s.queueOrStow i else s
    | .onTarget => s.pointing i carried r
    | .absent | .stowed | .queued | .standby | .excluded | .faulted => s

/-- A good reply applied to the record addressed, in the order of section 2.5 (R109). -/
def State.applyReply (s : State) (i : Nat) (f : Frame) (r : GoodReply) : State :=
  ((s.driveStatus i r).acknowledgeReply i f.target r).consequences i f.normal r

end Sys2Proof.Machine
end

