-- ==== Sys2Proof/Machine/Time.lean ====
section
/-! DEFINITION. The passing of milliseconds: the counter, every running countdown, and the events that are
due at a step of the counter (sections 4.1, 4.4, 6.5, 7.2, 7.4, 8.2, 8.4, 8.5). -/

namespace Sys2Proof.Machine

/-- A wait that began or resumed within a millisecond is not charged for that millisecond (log 19). -/
def Frame.charged (d : Nat) (f : Frame) : Nat := if f.fresh then d - 1 else d

/-- A wait's remaining time after `d` milliseconds: it falls while hunting and is held during a reception (R103,
R104). -/
def Frame.elapse (d : Nat) (f : Frame) : Frame :=
  if f.phase = .awaiting ∧ f.receiving = false then
    { f with remaining := f.remaining - 1000 * f.charged d, fresh := f.fresh && d == 0 }
  else f

/-- A segment's quiet countdown, babble measure and wait after `d` milliseconds (R103, R131, R132). -/
def Seg.elapse (d : Nat) (g : Seg) : Seg :=
  { g with
      quietLeft := g.quietLeft.map (· - d)
      activeUs := g.activeUs.map (· + 1000 * d)
      frame := g.frame.map (Frame.elapse d) }

/-- The epoch countdown falls while the timer runs (R78). -/
def Epoch.elapse (d : Nat) (e : Epoch) : Epoch :=
  if e.running then { e with countdown := e.countdown - d } else e

/-- The deadline and supervision countdowns fall while they run (R164, R168). -/
def Pau.elapse (d : Nat) (p : Pau) : Pau :=
  { p with deadlineLeft := p.deadlineLeft.map (· - d), supLeft := p.supLeft.map (· - d) }

/-- The release timers fall while they run (R93). -/
def Rsg.elapse (d : Nat) (r : Rsg) : Rsg :=
  { r with timers := Tab.update none (fun _ t => t.map (· - d)) (List.range 8) r.timers }

/-- `d` milliseconds pass: the counter advances modulo 2^32 and every running countdown falls, none below 0.
What falls due is acted on by the event's own row (logs 2 and 3). -/
def State.elapse (s : State) (d : Nat) : State :=
  { s with
      ms := s.ms + BitVec.ofNat 32 d
      segs := Tab.update Seg.reset (fun _ => Seg.elapse d) (List.range 8) s.segs
      epoch := s.epoch.elapse d
      rsg := s.rsg.elapse d
      pau := s.pau.elapse d }

/-- The milliseconds from one counter value to a later one, modulo 2^32 (R139). -/
def since (now start : Millis) : Nat := (now - start).toNat

/-- The qualification time a candidate was given when it began (R140, R156). -/
def Cand.span (c : Cand) : Nat := since c.deadline c.start

/-- Whether a candidate still pending qualifies at a differing sample (R140, R156). -/
def Cand.ripe (c : Cand) (now : Millis) : Bool := c.span ≤ since now c.start

/-- The milliseconds a candidate still has to run. -/
def Cand.left (c : Cand) (now : Millis) : Nat := c.span - since now c.start

/-- Time passes up to the deadline of the candidate that is pending, if one is. -/
def State.elapseTo (s : State) : Option Cand → State
  | some c => s.elapse (c.left s.ms)
  | none => s

/-- The qualified level of a channel, `true` for high (R140). -/
def Channel.qualified (c : Channel) : Bool := c.state == .sunlit

/-- SHADE_MAX in milliseconds (R147). -/
def State.shadeLimit (s : State) : Nat := s.scu.shadeMax * 1000

/-- A shadow that began at `start` has lasted longer than a limit that is set (R147). -/
def State.tooLong (s : State) (start : Millis) : Bool := s.scu.shadeMax != 0 && s.shadeLimit < since s.ms start

/-- A SHADED channel has been shaded longer than a limit that is set (R147). -/
def State.overdue (s : State) (k : Nat) : Bool :=
  (s.channel k).state == .shaded && s.tooLong (s.channel k).shadeStart

/-! ### What is due at a step of the counter -/

/-- A sample of a sensor that has an effect: a candidate begins, is dropped, or qualifies (R140). -/
def State.dueSensor (s : State) (k : Fin 8) : List Instr :=
  let level := s.pins.shd.getLsbD k
  let c := s.channel k
  match c.cand with
  | none => if level = c.qualified then [] else [.shadowSensorChange k level]
  | some cd =>
    if level = c.qualified then [.shadowSensorChange k level]
    else if cd.ripe s.ms then [if c.qualified then .shadowOnset k else .shadowEnd k]
    else []

/-- A sensor that becomes STUCK at this step: SHADED for too long, or with an onset due at this very step that began
too long ago (R147). -/
def State.dueStuck (s : State) (k : Fin 8) : List Instr :=
  let onset := match (s.channel k).cand with
    | some cd => Instr.shadowOnset k ∈ s.dueSensor k && s.tooLong cd.start
    | none => false
  if s.overdue k || onset then [.sensorStuck k] else []

/-- A sample of STOWREQ_N that has an effect (R156). -/
def State.dueStowLine (s : State) : List Instr :=
  let level := s.pins.stowreqN
  match s.pau.lineCand with
  | none => if level = !s.pau.asserted then [] else [.stowLineChange level]
  | some cd =>
    if level = !s.pau.asserted then [.stowLineChange level]
    else if cd.ripe s.ms then [.stowLineQualified]
    else []

/-- Forty byte times at a rate, in microseconds (R131). -/
def Rate.babbleUs (r : Rate) : Nat := r.bytesUs 40

/-- The wait of a segment has run out while hunting (R108). -/
def Frame.runOut (f : Frame) : Bool := f.phase == .awaiting && !f.receiving && f.remaining == 0

/-- What falls due in one segment: the end of its wait, the end of its lock, its lock (R108, R132, R131). -/
def State.dueSegment (s : State) (k : Fin 8) : List Instr :=
  let g := s.seg k
  (if g.frame.any Frame.runOut then [.replyTimeout k] else [])
    ++ (if g.state = .locked ∧ g.quietLeft = some 0 then [.quietExpiry k] else [])
    ++ (match g.activeUs with
        | some us => if (g.rate.babbleUs : Int) < us then [.segmentLocked k] else []
        | none => [])

/-- The events due at a step of the counter, as commands, in the one order of log 2: samples of the stow line
and of the sensors, stuck sensors, the deadline and supervision timers, the release timers, the epoch timer, the
segments. An event that loads a timer stands after the expiry of that timer, so that none acts on the new value. -/
def State.dueEvents (s : State) : List Instr :=
  s.dueStowLine
    ++ (List.finRange 8).flatMap s.dueSensor
    ++ (List.finRange 8).flatMap s.dueStuck
    ++ (if s.pau.deadlineLeft = some 0 then [.deadlineExpiry] else [])
    ++ (if s.pau.supLeft = some 0 then [.supervisionExpired] else [])
    ++ (List.finRange 8).flatMap (fun k : Fin 8 => if s.timer k = some 0 then [.releaseTimerExpiry k] else [])
    ++ (if s.epoch.running && s.epoch.countdown == 0 then [.epochExpiry] else [])
    ++ (List.finRange 8).flatMap s.dueSegment

/-- One step of the counter with nothing commanded (DESIGN CHOICE, log 2): a millisecond passes, STOWREQ_N is
sampled, and the events that are due are queued for the steps that follow. -/
def State.tick (s : State) : State :=
  let s1 := s.elapse 1
  let s2 := { s1 with pau := { s1.pau with stowSampled := s1.pins.stowreqN } }
  { s2 with pending := s2.dueEvents }

end Sys2Proof.Machine
end

