-- ==== Sys2Proof/Machine/Link.lean ====
section
/-! DEFINITION. Segment link operation: passes, order of service, dialogues, maintenance ring, babble
lockout, polarity latch, rate fallback and restart (chapters 5 and 6). -/

namespace Sys2Proof.Machine

/-! ### Passes and releases -/

/-- A pass starts (R123). -/
def Seg.passStart (g : Seg) : Seg :=
  { g with
      state := .passing
      passPos := none
      answered := 0
      missed := 0
      crcErrors := 0
      turn := true
      pendingRelease := false }

/-- A release reaches a segment's controller (R120). -/
def State.release (s : State) (k : Nat) : State :=
  match (s.seg k).state with
  | .idle | .waiting => s.modSeg k Seg.passStart
  | .passing => (s.modSeg k fun g => { g with pendingRelease := true }).raiseD .passOverrun
  | .locked | .disabled => s

/-- A pass ends at its boundary: with the pending release set a new one starts at once, otherwise the segment
rests (R125). -/
def State.passEnd (s : State) (k : Nat) : State :=
  if (s.seg k).pendingRelease then s.modSeg k Seg.passStart
  else s.modSeg k fun g => { g with state := s.restState k, passPos := none }

/-! ### The maintenance ring -/

/-- The head record is returned to the dispatch master with its result (R130); the event is raised by the
caller. -/
def Seg.returnHead (g : Seg) (result : MaintResult) (reply : Option Reply) : Seg :=
  { g with
      slots := Tab.put Slot.reset g.slots g.head
        { g.slot g.head with owner := .dispatch, result := result, reply := reply }
      head := (g.head + 1) % 16
      count := g.count - 1 }

/-- A record is returned and MAINT_RETURNED raised (R130). -/
def State.maintReturn (s : State) (k : Nat) (result : MaintResult) (reply : Option Reply) : State :=
  (s.modSeg k fun g => g.returnHead result reply).raiseD .maintReturned

/-- Every record owned by the part is returned CANCELLED, from the head onward (R130). -/
def cancelRing : Nat → Seg → Seg
  | 0, g => g
  | n + 1, g => cancelRing n (g.returnHead .cancelled none)

/-- The checks R129 makes on the head record. -/
def State.maintRefused (s : State) (k : Nat) (r : Slot) : Bool :=
  let h := s.hel r.heliostat
  h.state == .absent || h.segment != k
    || (r.action == .move && (h.state != .excluded || s.stowInEffect || s.pau.defocus))

/-! ### Fixing frames -/

/-- The next sequence number of a record (R100). -/
def nextSeq (n : Nat) : Nat := (n + 1) % 16

/-- A PASS or URGENT frame fixed for a heliostat's current target (R98, R99, R100). -/
def State.trackFrame (s : State) (k i : Nat) (o : Origin) : Frame :=
  let h := s.hel i
  let t := s.currentTarget h
  { origin := o
    heliostat := some i
    askedDrop := h.drop
    taken := false
    drop := h.drop
    kind := some (if t = .stow then .stow else .track)
    seq := nextSeq h.seq
    payload := if t = .stow then [0, 0, 0, 0, 0, 0] else vector16 h.nCmd
    normal := if t = .stow then none else some h.nCmd
    target := some t
    rate := some (s.seg k).rate
    phase := .sending
    remaining := 0
    fresh := false
    receiving := false
    receptions := 0
    corruptSeen := false
    orphaned := false }

/-- A MAINT frame fixed from a maintenance record (R98, R116). -/
def State.maintFrame (s : State) (k : Nat) (r : Slot) : Frame :=
  let h := s.hel r.heliostat
  { origin := .maint
    heliostat := some r.heliostat
    askedDrop := h.drop
    taken := false
    drop := h.drop
    kind := some r.action.kind
    seq := nextSeq h.seq
    payload := r.payload.1
    normal := r.payload.2
    target := none
    rate := some (s.seg k).rate
    phase := .sending
    remaining := 0
    fresh := false
    receiving := false
    receptions := 0
    corruptSeen := false
    orphaned := false }

/-- The stow broadcast (R115). -/
def broadcastFrame (r : Rate) : Frame :=
  { origin := .broadcast
    heliostat := none
    askedDrop := 255
    taken := false
    drop := 255
    kind := some .stow
    seq := 0
    payload := [0, 0, 0, 0, 0, 0]
    normal := none
    target := some .stow
    rate := some r
    phase := .sending
    remaining := 0
    fresh := false
    receiving := false
    receptions := 0
    corruptSeen := false
    orphaned := false }

/-- A frame that waits for the ACU to answer a solve: heliostat and origin are recorded (R99). -/
def solvingFrame (i drop : Nat) (o : Origin) : Frame :=
  { origin := o
    heliostat := some i
    askedDrop := drop
    taken := false
    drop := 0
    kind := none
    seq := 0
    payload := []
    normal := none
    target := none
    rate := none
    phase := .solving
    remaining := 0
    fresh := false
    receiving := false
    receptions := 0
    corruptSeen := false
    orphaned := false }

/-- A frame begins to be sent; the driver is enabled, so the babble watch does not run (R102, R131). -/
def State.sendFrame (s : State) (k : Nat) (f : Frame) : State :=
  s.modSeg k fun g => { g with frame := some f, activeUs := none }

/-- A frame for a heliostat is fixed: recorded, and the record's seq advanced (R99, R100). -/
def State.fixFrame (s : State) (k i : Nat) (f : Frame) : State :=
  (s.sendFrame k f).modHel i fun h => { h with seq := f.seq }

/-- A segment's frame-in-flight record is emptied (R97). -/
def State.emptyFrame (s : State) (k : Nat) : State := s.modSeg k fun g => { g with frame := none }

/-- A PASS or URGENT item is taken and its frame built: dropped where the record is absent, names another
segment or is EXCLUDED; fixed where the tag matches; otherwise a solve is asked for (R99, R89). -/
def State.buildFrame (s : State) (k i : Nat) (o : Origin) : State :=
  let h := s.hel i
  if h.state = .absent ∨ h.segment ≠ k ∨ h.state = .excluded then s
  else if h.tag.matches (s.currentTarget h) then s.fixFrame k i (s.trackFrame k i o)
  else s.modSeg k fun g => { g with frame := some (solvingFrame i h.drop o) }

/-- The answer of a solve to the frame that asked for it (R92, R99): the frame is abandoned where the record is
absent, re-addressed or EXCLUDED; fixed where tag and target agree; otherwise another solve is asked for. -/
def State.answerSolve (s : State) (k : Nat) (f : Frame) : State :=
  match f.heliostat with
  | none => s.emptyFrame k
  | some i =>
    let h := s.hel i
    if h.state = .absent ∨ h.segment ≠ k ∨ h.drop ≠ f.askedDrop ∨ h.state = .excluded then s.emptyFrame k
    else if h.tag.matches (s.currentTarget h) then s.fixFrame k i (s.trackFrame k i f.origin)
    else s.modSeg k fun g => { g with frame := some { f with taken := false } }

/-! ### The order of service -/

/-- A segment is at a frame boundary (section 6.2). -/
def Seg.atBoundary (g : Seg) : Bool :=
  (g.state == .idle || g.state == .waiting || g.state == .passing) && g.frame.isNone

/-- The drop of the pass position, none counting as below every drop (R124). -/
def Seg.below (g : Seg) (drop : Nat) : Bool :=
  match g.passPos with
  | none => true
  | some p => p < drop

/-- The item of the lower drop address (R124). -/
def State.lowerDrop (s : State) (best : Option Nat) (i : Nat) : Option Nat :=
  match best with
  | none => some i
  | some j => if (s.hel i).drop < (s.hel j).drop then some i else some j

/-- The next pass item: the present, not EXCLUDED heliostat of the segment whose drop is the lowest above
the pass position (R124). -/
def State.nextPassItem (s : State) (k : Nat) : Option Nat :=
  (s.present.filter fun i => (s.hel i).segment == k && (s.hel i).state != .excluded
      && (s.seg k).below (s.hel i).drop).foldl s.lowerDrop none

/-- The head record of the ring is served: refused at once, or its frame fixed, which clears the
maintenance turn (R121, R129). -/
def State.serveMaint (s : State) (k : Nat) : State :=
  let r := (s.seg k).slot (s.seg k).head
  if s.maintRefused k r then s.maintReturn k .refused none
  else (s.fixFrame k r.heliostat (s.maintFrame k r)).modSeg k fun g => { g with turn := false }

/-- The next pass item is taken: pass position and maintenance turn are set and its frame built (R121,
R124). Without one the pass ends (R125). -/
def State.servePass (s : State) (k : Nat) : State :=
  match s.nextPassItem k with
  | some i =>
    (s.modSeg k fun g => { g with passPos := some (s.hel i).drop, turn := true }).buildFrame k i .pass
  | none => s.passEnd k

/-- What a segment takes at a frame boundary, in the order of service (R121). -/
def State.takeNext (s : State) (k : Nat) : State :=
  let g := s.seg k
  if g.owed then (s.sendFrame k (broadcastFrame g.rate)).modSeg k fun g => { g with owed := false }
  else match g.urgent with
    | i :: rest => (s.modSeg k fun g => { g with urgent := rest }).buildFrame k i .urgent
    | [] =>
      if 0 < g.count ∧ (g.state ≠ .passing ∨ g.turn = true) then s.serveMaint k
      else if g.state = .passing then s.servePass k
      else s

/-- NEXT_ITEM_TAKEN (R121). -/
def execNextItemTaken (segment : Fin 8) (s : State) : Outcome :=
  .next (if (s.seg segment).atBoundary then s.takeNext segment else s)

/-! ### Sending and waiting -/

/-- A fixed frame that begins to wait for its reply, with the wait given in microseconds (R103, R104). -/
def Frame.await (f : Frame) (us : Nat) : Frame :=
  { f with phase := .awaiting, remaining := us, fresh := true, receptions := 0, receiving := false, corruptSeen := false }

/-- The frame a segment holds after the last stop bit: a broadcast's dialogue ends, any other waits for the
reply timeout (R102, R115). -/
def Seg.sent (g : Seg) (f : Frame) : Option Frame :=
  if f.origin = .broadcast then none else some (f.await (g.timeout * 100))

/-- FRAME_SENT (R102): the frame is sent, and the babble watch runs again. -/
def execFrameSent (segment : Fin 8) (s : State) : Outcome :=
  .next (match (s.seg segment).frame with
    | some f =>
      if f.phase = .sending then
        s.modSeg segment fun g => { g with activeUs := s.freshWatch segment, frame := g.sent f }
      else s
    | none => s)

/-- A byte is the first marker byte or its complement (R104). -/
def firstMarker (b : Byte) : Bool := b == 0x7E || b == 0x81

/-- A byte as the controller takes it: complemented while the latch is INVERTED (R101, R135). -/
def Seg.receive (g : Seg) (b : Byte) : Byte := if g.inverted then ~~~b else b

/-- RECEPTION_BEGINS (R104): a first marker byte while the controller hunts begins a reception; the
remaining time is held at the value it had at the start bit. Any other byte is discarded. A marker whose start bit
comes when the remaining time has run out comes too late (R103): the wait has ended (logs 1 and 19). -/
def execReceptionBegins (segment : Fin 8) (marker : Byte) (huntedUs : Nat) (s : State) : Outcome :=
  .next (match (s.seg segment).frame with
    | some f =>
      if f.phase = .awaiting ∧ f.receiving = false ∧ firstMarker ((s.seg segment).receive marker)
          ∧ huntedUs < f.remaining then
        s.modSeg segment fun g => { g with
          frame := some { f with receiving := true, remaining := f.remaining - huntedUs } }
      else s
    | none => s)

/-! ### Outcomes -/

/-- The result a miss writes to a maintenance record: CRC_FAIL where the reception count reached 4 with a
corrupt reception among the four, NO_REPLY otherwise (R108). -/
def Frame.missResult (f : Frame) : MaintResult :=
  if f.receptions = 4 ∧ f.corruptSeen = true then .crcFail else .noReply

/-- A wait ends in a miss (R108): the frame is emptied; the miss acts on the record and the pass counter
unless the frame is orphaned; a maintenance record is returned. -/
def State.missOutcome (s : State) (k : Nat) (f : Frame) : State :=
  let s1 := s.emptyFrame k
  let s2 := match f.heliostat with
    | some i =>
      if f.orphaned then s1
      else (s1.missOne i).modSeg k fun g => { g with missed := min 65535 (g.missed + 1) }
    | none => s1
  let s3 := if f.origin = .maint then s2.maintReturn k f.missResult none else s2
  s3.refreshClear

/-- A reception that did not end the dialogue: the count rises, hunting begins again with the remaining
time kept, and a count of 4 ends the wait in a miss (R104, R105). -/
def State.countReception (s : State) (k : Nat) (f : Frame) (corrupt : Bool) : State :=
  let f1 := { f with
    receptions := f.receptions + 1, fresh := true, receiving := false, corruptSeen := f.corruptSeen || corrupt }
  if 4 ≤ f1.receptions then s.missOutcome k f1
  else s.modSeg k fun g => { g with frame := some f1 }

/-- The next lower rate (R136). -/
def Rate.down : Rate → Rate
  | .fast => .medium
  | .medium => .slow
  | .slow => .slow

/-- A corrupt reception's counters: CRC errors and error run, with the rate fallback at a run of 8, and the
inverted run ended (R107, R134, R136). -/
def State.corruptCounters (s : State) (k : Nat) : State :=
  let g := s.seg k
  let s1 := s.modSeg k fun g => { g with crcErrors := min 65535 (g.crcErrors + 1), invertedRun := 0 }
  if 8 ≤ g.errorRun + 1 then
    let s2 := s1.modSeg k fun g => { g with errorRun := 0, rate := g.rate.down }
    if g.rate = .slow then s2 else s2.raiseD .rateFallback
  else s1.modSeg k fun g => { g with errorRun := g.errorRun + 1 }

/-- A corrupt reception (R107). -/
def State.corruptReception (s : State) (k : Nat) (f : Frame) : State :=
  (s.corruptCounters k).countReception k f true

/-- A stale reply: only the reception count, and the end of the inverted run (R106, R134). -/
def State.staleReply (s : State) (k : Nat) (f : Frame) : State :=
  (s.modSeg k fun g => { g with invertedRun := 0 }).countReception k f false

/-- A qualifying inverted reception (R134); the fourth in a row sets the latch and raises
POLARITY_INVERTED (R135). -/
def State.qualifyingInverted (s : State) (k : Nat) (f : Frame) : State :=
  let n := (s.seg k).invertedRun + 1
  let s1 :=
    if 4 ≤ n then
      (s.modSeg k fun g => { g with inverted := true, invertedRun := 0 }).raiseD .polarityInverted
    else s.modSeg k fun g => { g with invertedRun := n }
  s1.countReception k f false

/-- The fields of a complete reception after its marker (R199): drop, kind echo, seq and motion byte, fault
byte, normal and CRC. -/
structure ReplyFields where
  drop : Byte
  kind : Byte
  seqMotion : Byte
  fault : Byte
  x : BitVec 16
  y : BitVec 16
  z : BitVec 16
  crcOk : Bool
  deriving DecidableEq, Repr

/-- Read the twelve bytes after the marker; `none` where they are not twelve. -/
def replyFields : List Byte → Option ReplyFields
  | [d, k, m, f, x1, x0, y1, y0, z1, z0, c1, c0] =>
    some ⟨d, k, m, f, x1 ++ x0, y1 ++ y0, z1 ++ z0,
      crc [d, k, m, f, x1, x0, y1, y0, z1, z0] == (c1 ++ c0 : BitVec 16)⟩
  | _ => none

/-- A reply's seq: bits 3..0 of offset 4 (R199). -/
def ReplyFields.seq (r : ReplyFields) : Nat := r.seqMotion.toNat % 16

/-- A reply's motion: bits 7..4 of offset 4 (R199). -/
def ReplyFields.motion (r : ReplyFields) : Option Motion := motionOf (r.seqMotion.toNat / 16)

/-- The CRC checks, and the motion and fault bytes are valid (R105, cases 2 and 3). -/
def ReplyFields.sound (r : ReplyFields) : Bool :=
  r.crcOk && r.motion.isSome && r.fault.toNat ≤ 15

/-- Drop, seq and kind echo are those of the frame (R105, case 4). -/
def ReplyFields.answers (r : ReplyFields) (f : Frame) : Bool :=
  r.drop.toNat == f.drop && r.seq == f.seq && some r.kind == f.kind.map Kind.code

/-- What a sound reply reports (R109). -/
def ReplyFields.reply (r : ReplyFields) : GoodReply :=
  ⟨r.motion.getD .none, r.fault.toNat, components r.x r.y r.z⟩

/-- The reply data a good MAINT reply leaves in its record (R109, R127). -/
def Frame.replyData (f : Frame) (r : GoodReply) : Option Reply :=
  f.kind.map fun k => ⟨k, r.motion, r.fault, r.normal⟩

/-- A good reply ends the dialogue (R109). It is applied to the record and counted as answered unless the
frame is orphaned (R113); a maintenance record is returned DONE, or NO_REPLY where orphaned (R116). The
error run ends (DEDUCED for an orphaned frame, log 12), as does the inverted run (R134). -/
def State.goodReply (s : State) (k : Nat) (f : Frame) (r : GoodReply) : State :=
  let s1 := s.modSeg k fun g => { g with frame := none, errorRun := 0, invertedRun := 0 }
  let s2 := match f.heliostat with
    | some i =>
      if f.orphaned then s1
      else (s1.applyReply i f r).modSeg k fun g => { g with answered := min 65535 (g.answered + 1) }
    | none => s1
  let s3 :=
    if f.origin = .maint then
      if f.orphaned then s2.maintReturn k .noReply none else s2.maintReturn k .done (f.replyData r)
    else s2
  s3.refreshClear

/-- The kinds of complete reception (R104, R105). -/
inductive Reception where
  | notBegun | inverted | broken | plain
  deriving DecidableEq, Repr

/-- The marker decides first: no reception, an inverted one while the latch is NORMAL, a broken one whose
second byte is no partner of the first, or one to be checked (R104, R105). -/
def Seg.receptionKind (g : Seg) (b0 b1 : Byte) : Reception :=
  if b0 = 0x7E then (if b1 = 0xA5 then .plain else .broken)
  else if b0 = 0x81 then
    (if b1 = 0x5A then (if g.inverted then .plain else .inverted) else .broken)
  else .notBegun

/-- A complete reception of a waiting frame, classified by the first case that applies (R105). -/
def State.classify (s : State) (k : Nat) (f : Frame) (bytes : List Byte) : State :=
  match bytes.map (s.seg k).receive with
  | b0 :: b1 :: body =>
    match (s.seg k).receptionKind b0 b1 with
    | .notBegun => s
    | .broken => s.corruptReception k f
    | .inverted =>
      match replyFields (body.map (~~~·)) with
      | some r => if r.sound then s.qualifyingInverted k f else s.corruptReception k f
      | none => s
    | .plain =>
      match replyFields body with
      | some r =>
        if !r.sound then s.corruptReception k f
        else if !r.answers f then s.staleReply k f
        else s.goodReply k f r.reply
      | none => s
  | _ => s

/-- RECEPTION_COMPLETE (R105): the end of a reception of fourteen bytes that a marker began. Bytes that arrive while
hunting or with no wait in progress are discarded uncounted (R104, R114). -/
def execReceptionComplete (segment : Fin 8) (bytes : List Byte) (s : State) : Outcome :=
  .next (match (s.seg segment).frame with
    | some f => if f.phase = .awaiting ∧ f.receiving = true then s.classify segment f bytes else s
    | none => s)

/-- RECEPTION_BROKEN (R104, R105): a reception that a marker began is broken, and is a corrupt one. A bad byte while
hunting is discarded uncounted (R104). -/
def execReceptionBroken (segment : Fin 8) (s : State) : Outcome :=
  .next (match (s.seg segment).frame with
    | some f => if f.phase = .awaiting ∧ f.receiving = true then s.corruptReception segment f else s
    | none => s)

/-- REPLY_TIMEOUT (R108): the remaining time runs out, which it does only while hunting (R104); the whole
milliseconds of it pass (logs 3 and 19). -/
def execReplyTimeout (segment : Fin 8) (s : State) : Outcome :=
  .next (match (s.seg segment).frame with
    | some f =>
      if f.phase = .awaiting ∧ f.receiving = false then
        (s.elapse (f.remaining / 1000)).missOutcome segment { f with remaining := 0 }
      else s
    | none => s)

/-! ### Babble lockout -/

/-- The pass in progress ends without another, and the dialogue is abandoned (R114, R118, R131, R138); what a frame
that is being sent still sends stands in `cut`. R118 and R131 clear the maintenance turn with a pass in progress; that it is cleared where none is, too, is a DESIGN CHOICE (log
23). -/
def Seg.abandon (g : Seg) : Seg :=
  { g with frame := none, passPos := none, pendingRelease := false, turn := false, quietLeft := none, cut := g.cutOff }

/-- SEGMENT_LOCKED (R131). The row says the receive line of the segment has been active for more than 40
byte times; the watch runs on an enabled segment while its own driver is off. -/
def execSegmentLocked (segment : Fin 8) (s : State) : Outcome :=
  let g := s.seg segment
  .next (if g.state = .disabled ∨ g.state = .locked ∨ g.driverEnable = true then s
    else (((s.setRx segment true).modSeg segment fun g =>
      { g.abandon with state := .locked, activeUs := none })).raiseD .segmentLocked)

/-- LINE_FALLS_IDLE (R131, R132): the measure of active time ends; on a LOCKED segment the quiet countdown
is loaded with QUIET and started. That it is loaded also where the line was idle already is a DESIGN CHOICE (log
31). -/
def execLineFallsIdle (segment : Fin 8) (s : State) : Outcome :=
  .next ((s.setRx segment false).modSeg segment fun g => { g with
    activeUs := none
    quietLeft := if g.state = .locked then some (g.quiet * 10) else g.quietLeft })

/-- RX_LINE_ACTIVE (R131, R132): activity stops a running quiet countdown; on an enabled segment whose own
driver is off the babble watch begins to measure. Where the line was active already, a measure that runs goes on and a
quiet countdown stops all the same: a DESIGN CHOICE (log 31). -/
def execRxLineActive (segment : Fin 8) (s : State) : Outcome :=
  .next ((s.setRx segment true).modSeg segment fun g => { g with
    quietLeft := none
    activeUs :=
      if g.state = .disabled ∨ g.state = .locked ∨ g.driverEnable = true then none
      else some (g.activeUs.getD newWatch) })

/-! ### Configuration and restart -/

/-- Enabling a DISABLED segment (R118). -/
def State.enableSeg (s : State) (k : Nat) : State :=
  s.modSeg k fun g => { g with
    state := s.restState k
    rate := g.confRate
    errorRun := 0
    owed := s.stowInEffect
    activeUs := s.freshWatch k }

/-- Disabling an enabled segment (R118). -/
def State.disableSeg (s : State) (k : Nat) : State :=
  s.modSeg k fun g => { g.abandon with state := .disabled, owed := false, activeUs := none }

/-- SET_LINK's effect on the enable flag (R118). -/
def State.setEnable (s : State) (k : Nat) (enable : Bool) : State :=
  if enable then (if (s.seg k).state = .disabled then s.enableSeg k else s)
  else (if (s.seg k).state = .disabled then s else s.disableSeg k)

/-- SET_LINK (R118, R119, R103, R45, R46, R20). -/
def execSetLink (segment enable rate timeout quiet missLimit devLimit : Byte) (ptol : BitVec 16) (s : State) :
    Outcome :=
  deliver (.setLink segment enable rate timeout quiet missLimit devLimit ptol) (fun t =>
    match rateOf rate with
    | none => (t, .range)
    | some r =>
      if 7 < segment.toNat then (t, .range)
      else
        let k := segment.toNat
        let tm := max 1 timeout.toNat
        let q := max 1 quiet.toNat
        let ml := clamp 1 15 missLimit.toNat
        let dl := clamp 1 15 devLimit.toNat
        let pt := clampPtol ptol.toNat
        let t1 := (t.setEnable k (enable != 0)).modSeg k fun g =>
          { g with confRate := r, rate := r, errorRun := 0, timeout := tm, quiet := q }
        ({ t1 with link := ⟨ml, dl, pt⟩ },
          takenCode (tm != timeout.toNat || q != quiet.toNat || ml != missLimit.toNat || dl != devLimit.toNat
            || pt != ptol.toNat))) s

/-- The controller's own part of a restart (R138). -/
def State.restartSeg (s : State) (k : Nat) : State :=
  s.modSeg k fun g =>
    let g1 := cancelRing g.count g.abandon
    { g1 with
        state := if g.state = .disabled then .disabled else s.restState k
        urgent := []
        inverted := false
        invertedRun := 0
        rate := g.confRate
        errorRun := 0
        answered := 0
        missed := 0
        crcErrors := 0
        owed := if g.state ≠ .disabled ∧ s.stowInEffect = true then true else g.owed
        activeUs := if g.state = .disabled then none
          else if g.state = .locked ∨ g.driverEnable = true then s.freshWatch k else g.activeUs }

/-- The counts a restart sets to 0 in every present heliostat of the segment (R138, R24). -/
def Hel.restarted (k : Nat) (h : Hel) : Hel :=
  if h.state ≠ .absent ∧ h.segment = k then { h with seq := 0, miss := 0, dev := 0 } else h

/-- A taken RESTART_SEGMENT (R138); MAINT_RETURNED once where a record was returned (R130). -/
def State.restart (s : State) (k : Nat) : State :=
  let s1 := s.restartSeg k
  let s2 := { s1 with hels := Tab.update Hel.empty (fun _ => Hel.restarted k) s.present s1.hels }
  if 0 < (s.seg k).count then s2.raiseD .maintReturned else s2

/-- RESTART_SEGMENT (R138). -/
def execRestartSegment (segment : Byte) (s : State) : Outcome :=
  deliver (.restartSegment segment) (fun t =>
    if 7 < segment.toNat then (t, .range) else (t.restart segment.toNat, .done)) s

/-- A record posted into the tail slot (R128). -/
def Seg.post (g : Seg) (i : Nat) (a : Action) (ops : BitVec 48) : Seg :=
  { g with
      slots := Tab.put Slot.reset g.slots ((g.head + g.count) % 16) ⟨.part, i, a, bytes48 ops, .none, none⟩
      count := g.count + 1 }

/-- POST_MAINT (R128). -/
def execPostMaint (segment : Byte) (index : BitVec 16) (action : Byte) (ops : BitVec 48) (s : State) : Outcome :=
  deliver (.postMaint segment index action ops) (fun t =>
    match actionOf action with
    | none => (t, .range)
    | some a =>
      if 7 < segment.toNat ∨ 1999 < index.toNat then (t, .range)
      else if 16 ≤ (t.seg segment.toNat).count then (t, .full)
      else (t.modSeg segment.toNat fun g => g.post index.toNat a ops, .done)) s

/-- READ_SEGMENT (R117, R183). -/
def execReadSegment (first : Byte) (s : State) : Outcome :=
  deliverRead (.readSegment first) (fun _ => if first.toNat ≤ 7 then some (.segment first.toNat) else none) s

/-- READ_MAINT (R127, R183). -/
def execReadMaint (segment : Byte) (s : State) : Outcome :=
  deliverRead (.readMaint segment) (fun _ =>
    if segment.toNat ≤ 7 then some (.maint segment.toNat 0) else none) s

end Sys2Proof.Machine
end

