-- ==== Sys2Proof/Machine/Protect.lean ====
section
/-! DEFINITION. Stow, defocus, the deadline and supervision (chapter 8), and the end of a lock (section 6.5). -/

namespace Sys2Proof.Machine

/-! ### Stow -/

/-- The move of one heliostat at stow engagement (R159). -/
def State.stowOne (s : State) (i : Nat) : State :=
  match (s.hel i).state with
  | .onTarget => s.depart i .stowed
  | .queued => s.dequeue i .stowed
  | .standby => s.modHel i fun h => { h with state := .stowed }
  | .offline | .faulted | .excluded | .stowed | .absent => s

/-- Broadcast owed is set on every segment that is not DISABLED (R137). -/
def Seg.owe (g : Seg) : Seg := if g.state = .disabled then g else { g with owed := true }

/-- Stow engagement (R159). -/
def State.engageStow (s : State) : State :=
  (((s.present.foldl State.stowOne s).modSegs Seg.owe).raiseBoth .stowChange .stowChange).refreshClear

/-- The move of one heliostat at stow release (R160). -/
def State.unstowOne (s : State) (i : Nat) : State :=
  let h := s.hel i
  if h.state = .stowed ∧ h.assignment.isSome ∧ h.trackingError = false then s.enqueue i else s

/-- Stow release (R160, R137, R76). -/
def State.releaseStow (s : State) : State :=
  let s1 := (s.present.foldl State.unstowOne s).modSegs fun g => { g with owed := false }
  ((s1.raiseBoth .stowChange .stowChange).settleAll).refreshClear

/-- The consequences of a source of stow that changed, by the value of stow in effect before (R158). -/
def State.rederiveStow (s : State) (before : Bool) : State :=
  if before = s.stowInEffect then s
  else if before then s.releaseStow else s.engageStow

/-- The stow command written (R157). -/
def State.setStowCommand (s : State) (b : Bool) : State :=
  { s with pau := { s.pau with stowCommand := b } }.rederiveStow s.stowInEffect

/-- STOW (R157). -/
def execStow (s : State) : Outcome := deliver .stow (fun t => (t.setStowCommand true, .done)) s

/-- UNSTOW (R157). -/
def execUnstow (s : State) : Outcome := deliver .unstow (fun t => (t.setStowCommand false, .done)) s

/-- A qualified change of the line: the request changes and the candidate is cleared (R156). -/
def State.qualifyLine (s : State) : State :=
  { s with pau := { s.pau with asserted := !s.pau.asserted, lineCand := none } }.rederiveStow s.stowInEffect

/-- A line candidate that begins at this sample, with 20 ms to qualify (R156). -/
def State.newLineCand (s : State) : Cand := ⟨s.ms, s.ms + 20⟩

/-- The line candidate written. -/
def State.setLineCand (s : State) (c : Option Cand) : State := { s with pau := { s.pau with lineCand := c } }

/-- One sample of STOWREQ_N, `true` for high (R156). -/
def State.sampleLine (s : State) (level : Bool) : State :=
  let s1 := { s with pins := { s.pins with stowreqN := level }, pau := { s.pau with stowSampled := level } }
  if level = !s.pau.asserted then s1.setLineCand none
  else match s.pau.lineCand with
    | none => s1.setLineCand (some s.newLineCand)
    | some cd => if cd.ripe s.ms then s1.qualifyLine else s1

/-- STOW_LINE_CHANGE (R156): the level at the input, and the sample of it. -/
def execStowLineChange (level : Bool) (s : State) : Outcome := .next (s.sampleLine level)

/-- STOW_LINE_QUALIFIED (R156): the new level lasts up to the candidate's deadline and is sampled there. The new
level is the one the line request does not show. -/
def execStowLineQualified (s : State) : Outcome :=
  .next ((s.elapseTo s.pau.lineCand).sampleLine s.pau.asserted)

/-! ### Defocus -/

/-- The move of one heliostat at defocus engagement (R162). -/
def State.defocusOne (s : State) (i : Nat) : State :=
  if (s.hel i).state = .onTarget then (s.depart i .queued).enqueue i else s

/-- The PAU's own part of a defocus engagement (R162). -/
def Pau.engage (p : Pau) (c : Cause) : Pau :=
  { p with defocus := true, cause := c, lateCount := 0, deadlineLeft := some (p.deadline * 100) }

/-- Defocus engagement (R162): DEFOCUS_COMPLETE is raised where FIELD_CLEAR is high at its end. -/
def State.engageDefocus (s : State) (c : Cause) : State :=
  let s1 := { s with pau := s.pau.engage c }
  let s2 := ((s.present.foldl State.defocusOne s1).raiseD .defocusChange).refreshClear
  if s2.pau.fieldClear then s2.raiseP .defocusComplete else s2

/-- FIELD_DEFOCUS (R161). -/
def execFieldDefocus (s : State) : Outcome :=
  deliver .fieldDefocus (fun t => (if t.pau.defocus then t else t.engageDefocus .protection, .done)) s

/-- Defocus release (R166). -/
def State.releaseDefocus (s : State) : State :=
  let s1 := { s with pau := { s.pau with defocus := false, cause := .none, deadlineLeft := none } }
  ((s1.raiseD .defocusChange).settleAll).refreshClear

/-- FIELD_RELEASE (R166). -/
def execFieldRelease (s : State) : Outcome :=
  deliver .fieldRelease (fun t => (if t.pau.defocus then t.releaseDefocus else t, .done)) s

/-- SET_DEADLINE (R164). -/
def execSetDeadline (value : BitVec 16) (s : State) : Outcome :=
  deliver (.setDeadline value) (fun t =>
    ({ t with pau := { t.pau with deadline := clamp 1 600 value.toNat } },
      takenCode (clamp 1 600 value.toNat != value.toNat))) s

/-- The deadline's expiry: it stops, and departing heliostats make the defocus late (R165). -/
def State.deadlineEnd (s : State) : State :=
  let s1 := { s with pau := { s.pau with deadlineLeft := none } }
  if 0 < s.departingCount then
    { s1 with pau := { s1.pau with lateCount := s.departingCount } }.raiseP .defocusLate
  else s1

/-- DEADLINE_EXPIRY (R165): the time left passes. -/
def execDeadlineExpiry (s : State) : Outcome :=
  .next (match s.pau.deadlineLeft with
    | some d => (s.elapse d).deadlineEnd
    | none => s)

/-! ### Supervision -/

/-- SUP_PERIOD written (R167). With 0 the countdown stops; with another value the delivery itself reloads it
(R168). -/
def Pau.supervise (p : Pau) (v : Nat) : Pau :=
  { p with supPeriod := v, supLeft := if v = 0 then none else p.supLeft }

/-- SUPERVISE (R167). -/
def execSupervise (period : Byte) (s : State) : Outcome :=
  deliver (.supervise period) (fun t => ({ t with pau := t.pau.supervise period.toNat }, .done)) s

/-- The supervision countdown's expiry (R169). -/
def State.supervisionEnd (s : State) : State :=
  let s1 := { s with pau := { s.pau with supLeft := none } }.raiseBoth .supervisionExpired .supervisionExpired
  if s.pau.defocus then s1 else s1.engageDefocus .supervision

/-- SUPERVISION_EXPIRED (R169): the time left passes. -/
def execSupervisionExpired (s : State) : Outcome :=
  .next (match s.pau.supLeft with
    | some d => (s.elapse d).supervisionEnd
    | none => s)

/-! ### The end of a lock, and pin reset -/

/-- QUIET_EXPIRY (R132): the time left passes, the lock ends and the countdown stops. -/
def execQuietExpiry (segment : Fin 8) (s : State) : Outcome :=
  .next (match (s.seg segment).state, (s.seg segment).quietLeft with
    | .locked, some d =>
      let s1 := s.elapse d
      s1.modSeg segment fun g => { g with state := s1.restState segment, quietLeft := none }
    | _, _ => s)

/-- PIN_RESET (R3, R21, R48, R52, R78, R82, R93, R117, R139, R155, R173, R198): every item returns to its reset
value; the levels outside the inputs, the waiting commands and the count of draws are not the part's. A frame that is
being sent goes on to the end of its byte under way (R114). -/
def execPinReset (s : State) : Outcome :=
  .next { State.reset with
    segs := Tab.update Seg.reset (fun k g => { g with cut := (s.seg k).cutOff }) (List.range 8) State.reset.segs
    pins := s.pins
    pending := s.pending
    draws := s.draws }

end Sys2Proof.Machine
end

