-- ==== Sys2Proof/Machine/Shade.lean ====
section
/-! DEFINITION. Cloud shadow sensing (chapter 7). -/

namespace Sys2Proof.Machine

/-- Set the level outside a sensor input. -/
def State.setShd (s : State) (k : Nat) (high : Bool) : State :=
  { s with pins := { s.pins with shd := if high then s.pins.shd ||| (1#8 <<< k) else s.pins.shd &&& ~~~(1#8 <<< k) } }

/-- The buffer has room for another record (R143). -/
def Channel.hasRoom (c : Channel) : Bool := c.records.length < c.depth

/-- What an onset makes of its channel (R141, R143, R144). -/
def Channel.onset (c : Channel) (start : Millis) : Channel :=
  { c with
      state := .shaded
      cand := none
      shadeStart := start
      records := if c.hasRoom then c.records ++ [⟨start, none⟩] else c.records
      overruns := if c.hasRoom then c.overruns else min 255 (c.overruns + 1) }

/-- An open record closed at a counter value; the OPEN mark itself is never a duration (R142). -/
def Capture.close (stop : Millis) (r : Capture) : Capture :=
  match r.duration with
  | some _ => r
  | none =>
    let d := stop - r.onset
    { r with duration := some (if d = 0xFFFFFFFF#32 then 0xFFFFFFFE#32 else d) }

/-- What an end makes of its channel (R142). The shade start, which R139 holds while SHADED or STUCK and no rule
clears, keeps the shadow's start (DESIGN CHOICE, log 24). -/
def Channel.finish (c : Channel) (stop : Millis) : Channel :=
  { c with state := .sunlit, cand := none, records := c.records.map (Capture.close stop) }

/-- The shade of every segment whose map holds sensor `k` is re-derived and handed on (R149, R150). -/
def State.reshade (s : State) (k : Nat) : State := (s.rederiveList (s.mappedTo k)).refreshClear

/-- An onset (R141, R144). -/
def State.shadeOnset (s : State) (k : Nat) (start : Millis) : State :=
  let s1 := s.modChannel k fun c => c.onset start
  (if (s.channel k).hasRoom then s1 else s1.raiseD .captureOverrun).reshade k

/-- An end (R142). -/
def State.shadeEnd (s : State) (k : Nat) (stop : Millis) : State :=
  (s.modChannel k fun c => c.finish stop).reshade k

/-- A qualified change that began at `start`: an onset of a SUNLIT channel, an end of another (R141, R142). -/
def State.qualify (s : State) (k : Nat) (start : Millis) : State :=
  if (s.channel k).qualified then s.shadeOnset k start else s.shadeEnd k start

/-- QUAL in milliseconds (R140). -/
def State.qualMs (s : State) : Nat := s.scu.qual * 10

/-- A candidate that begins at this sample (R140). -/
def State.newCand (s : State) : Cand := ⟨s.ms, s.ms + BitVec.ofNat 32 s.qualMs⟩

/-- One sample of a sensor input (R140). -/
def State.sampleSensor (s : State) (k : Nat) (level : Bool) : State :=
  let c := s.channel k
  if level = c.qualified then s.modChannel k fun c => { c with cand := none }
  else match c.cand with
    | none =>
      if s.scu.qual = 0 then s.qualify k s.ms
      else s.modChannel k fun c => { c with cand := some s.newCand }
    | some cd => if cd.ripe s.ms then s.qualify k cd.start else s

/-- SHADOW_SENSOR_CHANGE (R140): the level at the input, and the sample of it. -/
def execShadowSensorChange (sensor : Fin 8) (level : Bool) (s : State) : Outcome :=
  .next ((s.setShd sensor level).sampleSensor sensor level)

/-- SHADOW_ONSET (R140, R141): the low level lasts up to the candidate's deadline and is sampled there. -/
def execShadowOnset (sensor : Fin 8) (s : State) : Outcome :=
  .next (if (s.channel sensor).qualified then
      ((s.elapseTo (s.channel sensor).cand).setShd sensor false).sampleSensor sensor false
    else s)

/-- SHADOW_END (R140, R142): the high level lasts up to the candidate's deadline and is sampled there. -/
def execShadowEnd (sensor : Fin 8) (s : State) : Outcome :=
  .next (if (s.channel sensor).qualified then s
    else ((s.elapseTo (s.channel sensor).cand).setShd sensor true).sampleSensor sensor true)

/-- A channel marked STUCK, with SENSOR_STUCK on both ports (R147). -/
def State.markStuck (s : State) (k : Nat) : State :=
  (s.modChannel k fun c => { c with state := .stuck }).raiseBoth .sensorStuck .sensorStuck

/-- The milliseconds until a channel's shadow exceeds SHADE_MAX (R147). -/
def State.untilStuck (s : State) (k : Nat) : Nat := s.shadeLimit + 1 - since s.ms (s.channel k).shadeStart

/-- SENSOR_STUCK (R147): time passes until the shadow exceeds SHADE_MAX; the channel becomes STUCK and the
shade of its segments is re-derived. -/
def execSensorStuck (sensor : Fin 8) (s : State) : Outcome :=
  .next (if (s.channel sensor).state = .shaded ∧ s.scu.shadeMax ≠ 0 then
      ((s.elapse (s.untilStuck sensor)).markStuck sensor).reshade sensor
    else s)

/-! ### SET_SHADE -/

/-- A channel's depth written; a smaller one discards records from the oldest end (R146). -/
def Channel.setDepth (c : Channel) (d : Nat) : Channel :=
  { c with depth := d, records := c.records.drop (c.records.length - d) }

/-- Step 1 of R153. -/
def State.setDepths (s : State) (depths : BitVec 64) : State :=
  (List.range 8).foldl (fun s k => s.modChannel k fun c => c.setDepth (clamp 1 8 (byteAt depths k).toNat)) s

/-- Step 3 of R153: a new SHF is written and settled (R75, R151). -/
def State.setShf (s : State) (f : Nat) : State :=
  let s1 := { s with scu := { s.scu with shf := f } }
  if f = s.scu.shf then s1 else s1.shfSettle

/-- Step 4 of R153: a channel already shaded too long becomes STUCK. -/
def State.stuckCheck (s : State) (k : Nat) : State := if s.overdue k then s.markStuck k else s

/-- Step 5 of R153: the eight sensor maps. -/
def State.setMaps (s : State) (maps : BitVec 64) : State :=
  (List.range 8).foldl (fun s k => s.modShade k fun g => { g with map := byteAt maps k }) s

/-- A taken SET_SHADE, its steps in the order of R153. -/
def State.setShade (s : State) (maps : BitVec 64) (shf qual shadeMax : Nat) (depths : BitVec 64) : State :=
  let s1 := s.setDepths depths
  let s2 := { s1 with scu := { s1.scu with qual := qual } }
  let s3 := s2.setShf shf
  let s4 := { s3 with scu := { s3.scu with shadeMax := shadeMax } }
  let s5 := (List.range 8).foldl State.stuckCheck s4
  ((s5.setMaps maps).rederiveList (List.range 8)).refreshClear

/-- SHF or a depth is limited (R146, R151). -/
def shadeLimited (shf : BitVec 16) (depths : BitVec 64) : Bool :=
  256 < shf.toNat
    || (List.range 8).any fun k => clamp 1 8 (byteAt depths k).toNat != (byteAt depths k).toNat

/-- SET_SHADE (R152, R153). -/
def execSetShade (maps : BitVec 64) (shf : BitVec 16) (qual shadeMax : Byte) (depths : BitVec 64) (s : State) :
    Outcome :=
  deliver (.setShade maps shf qual shadeMax depths) (fun t =>
    (t.setShade maps (min 256 shf.toNat) qual.toNat shadeMax.toNat depths, takenCode (shadeLimited shf depths))) s

/-! ### READ_CAPTURE -/

/-- The oldest record leaves where it is closed, and the overrun count returns to 0 (R145). -/
def Channel.taken (c : Channel) : Channel :=
  { c with
      overruns := 0
      records := match c.records with
        | r :: rest => if r.duration.isSome then rest else r :: rest
        | [] => [] }

/-- READ_CAPTURE (R145): the readout is of the channel as the command finds it. -/
def execReadCapture (sensor : Byte) (s : State) : Outcome :=
  .next (deliverWith (.readCapture sensor)
    (fun t => if 7 < sensor.toNat then (t, .range) else (t.modChannel sensor.toNat Channel.taken, .done))
    (fun _ => some (s.captureObject sensor.toNat, none)) s)

end Sys2Proof.Machine
end

