-- ==== Sys2Proof/Machine/Sweep.lean ====
section
/-! DEFINITION. The sun source, the epoch timer, the sweep, on-demand solves and the Release Stagger Generator
(section 1.2, chapter 4). -/

namespace Sys2Proof.Machine

/-! ### The sun source -/

/-- The sum of squares of a vector (R4). -/
def Vec3.normSq (v : Vec3) : Int := v.x * v.x + v.y * v.y + v.z * v.z

/-- The acceptance test of a sun vector: its sum of squares is within 2^24 of 2^30 (R4). -/
def sunAccepted (v : Vec3) : Bool := 1056964608 ≤ v.normSq && v.normSq ≤ 1090519040

/-- An operand of SET_SUN is limited: DNI, ATC or a component of −32768 (R5). -/
def sunLimited (sx sy sz dni atc : BitVec 16) : Bool :=
  1500 < dni.toNat || 4095 < atc.toNat || componentLimited sx || componentLimited sy || componentLimited sz

/-- SET_SUN (R4, R5). -/
def execSetSun (sx sy sz dni atc : BitVec 16) (s : State) : Outcome :=
  deliver (.setSun sx sy sz dni atc) (fun t =>
    let v := components sx sy sz
    if sunAccepted v then
      ({ t with sun := ⟨true, v, min 1500 dni.toNat, min 4095 atc.toNat⟩ }, takenCode (sunLimited sx sy sz dni atc))
    else (t.raiseD .sunHeld, .held)) s

/-! ### The release stagger generator -/

/-- The value after a draw: twice the old one modulo 256, combined with 0x1D where the old one was 128 or more
(R94). -/
def rsgNext (r : BitVec 8) : BitVec 8 := if 128 ≤ r.toNat then (r <<< 1) ^^^ 0x1D#8 else r <<< 1

/-- An IDLE segment whose release timer starts becomes WAITING (R120). -/
def Seg.await (g : Seg) : Seg := if g.state = .idle then { g with state := .waiting } else g

/-- One draw of a start: segment `k`'s delay is loaded, or its release handed over at once where the delay is 0
(R95, R96). -/
def State.draw (s : State) (k : Nat) : State :=
  let d := k * s.rsg.stepMs + s.rsg.reg.toNat % (s.rsg.dmax + 1)
  let s1 := { s with rsg := { s.rsg with reg := rsgNext s.rsg.reg } }
  if d = 0 then (s1.setTimer k none).release k else (s1.setTimer k (some d)).modSeg k Seg.await

/-- A start of the generator: eight draws in ascending segment order (R95). -/
def State.startRsg (s : State) : State := (List.range 8).foldl State.draw s

/-- SET_STAGGER (R93). -/
def execSetStagger (stepMs dmax seed : Byte) (s : State) : Outcome :=
  deliver (.setStagger stepMs dmax seed) (fun t =>
    let r : BitVec 8 := if seed = 0 then 1 else seed
    ({ t with rsg := { t.rsg with stepMs := stepMs.toNat, dmax := dmax.toNat, reg := r } }, takenCode (seed == 0))) s

/-- RELEASE_TIMER_EXPIRY (R96): the time left passes, the timer stops and the release is handed over. -/
def execReleaseTimerExpiry (segment : Fin 8) (s : State) : Outcome :=
  .next (match s.timer segment with
    | some d => ((s.elapse d).setTimer segment none).release segment
    | none => s)

/-! ### The sweep -/

/-- The commit of one present record (R73). -/
def Hel.commit (h : Hel) : Hel :=
  if h.mark then { h with pClear := h.pNew, pValid := h.pNewValid, mark := false } else { h with pValid := false }

/-- The commit of every present record (R73). -/
def State.commit (s : State) : State :=
  { s with hels := Tab.update Hel.empty (fun _ => Hel.commit) s.present s.hels }

/-- The four steps of a sweep's completion (R87). -/
def State.finishSweep (s : State) : State :=
  let s1 := { s with sweep := { s.sweep with inFlight := false, count := (s.sweep.count + 1) % 65536 } }
  ((s1.commit.settleAll).raiseD .sweepDone).startRsg

/-- A completion with the miss accrual of the LOCKED and DISABLED segments: of those in `first` before the
commit, of the others after it (R87, R133). -/
def State.completeSweep (s : State) (first : Byte) : State :=
  let before := (List.range 8).filter fun k => first.getLsbD k
  let after := (List.range 8).filter fun k => !first.getLsbD k
  (((s.accrue before).finishSweep).accrue after).refreshClear

/-- The start of a sweep: snapshot, remaining set and flag as one action (R82). A sweep of an empty table
completes at once (R82, R87); no accrual finds a heliostat then. -/
def State.startSweep (s : State) : State :=
  let s1 := { s with
    snapshot := some s.sun
    sweep := { s.sweep with inFlight := true, remaining := s.present, lastVisited := none } }
  if s.present.isEmpty then s1.completeSweep 0 else s1

/-- SWEEP_COMPLETE (R87): a sweep is in flight and its remaining set is empty. -/
def execSweepComplete (accrualFirst : Byte) (s : State) : Outcome :=
  .next (if s.sweep.inFlight && s.sweep.remaining.isEmpty then s.completeSweep accrualFirst else s)

/-- A segment's solve request is pending: asked for and not taken by the arbiter (R89, R97). -/
def State.solving (s : State) (k : Nat) : Bool :=
  match (s.seg k).frame with
  | some f => f.phase == .solving && !f.taken
  | none => false

/-- The next pending solve, counting up from the segment after the last one served (R91). -/
def State.nextSolve (s : State) : Option Nat :=
  ((List.range 8).map fun j => (s.lastServed + 1 + j) % 8).find? s.solving

/-- One visit of the sweep (R83, R84). -/
def State.visit (s : State) (i : Nat) (rest : List Nat) : State :=
  { s.modHel i s.visited with sweep := { s.sweep with remaining := rest, lastVisited := some i } }

/-- SWEEP_VISIT (R83, R91): a sweep is in flight with indices left, the path is free and no solve is pending. -/
def execSweepVisit (s : State) : Outcome :=
  .next (match s.sweep.inFlight && s.solveOut.isNone && s.nextSolve.isNone, s.sweep.remaining with
    | true, i :: rest => s.visit i rest
    | _, _ => s)

/-- The record a solve request names is absent (R90). -/
def State.solveAbsent (s : State) (f : Frame) : Bool :=
  match f.heliostat with
  | some i => (s.hel i).state == .absent
  | none => true

/-- The write of a solve: the record named is computed toward its current target, unless it is absent (R89, R90). -/
def State.solveRecord (s : State) (f : Frame) : State :=
  match f.heliostat with
  | some i => if s.solveAbsent f then s else s.modHel i s.solved
  | none => s

/-- The arbiter takes segment `k`'s request (R89 to R91): the last segment served, the record's write, and the answer
that is out from then on (log 16). -/
def State.takeSolve (s : State) (k : Nat) : State :=
  match (s.seg k).frame with
  | some f =>
    let s1 := s.solveRecord f
    { s1.modSeg k fun g => { g with frame := some { f with taken := true } } with
      lastServed := k
      solveOut := some ⟨k, s.solveAbsent f⟩ }
  | none => s

/-- The answer that is out is handed to its segment (R90, R92, R99). A segment that was restarted, disabled or locked
since the request was taken discards it: no frame of its own waits for it. -/
def State.handAnswer (s : State) (o : SolveOut) : State :=
  let s1 := { s with solveOut := none }
  match (s.seg o.segment).frame with
  | some f =>
    if f.phase = .solving ∧ f.taken = true then
      if o.absent then s1.emptyFrame o.segment else s1.answerSolve o.segment f
    else s1
  | none => s1

/-- The answer that is out, if one is, is handed over. -/
def State.handOver (s : State) : State :=
  match s.solveOut with
  | some o => s.handAnswer o
  | none => s

/-- SOLVE (R89 to R92): an answer that is out is handed over; otherwise the next pending request is taken, its
record computed and its segment answered in one step. -/
def execSolve (s : State) : Outcome :=
  .next (match s.solveOut, s.nextSolve with
    | none, some k => (s.takeSolve k).handOver
    | _, _ => s.handOver)

/-- SOLVE whose answer is still to come (R90, R92, log 16): the next pending request is taken and its record
computed. While an answer is out the path is not free (R91). -/
def execSolveBegun (s : State) : Outcome :=
  .next (match s.solveOut, s.nextSolve with
    | none, some k => s.takeSolve k
    | _, _ => s)

/-! ### The epoch timer -/

/-- The Epoch Timer stopped (R79). -/
def Epoch.stopped : Epoch := ⟨false, 0, none, 0⟩

/-- A period written to the Epoch Timer (R79). -/
def Epoch.write (e : Epoch) (p : Nat) : Epoch :=
  if p = 0 then Epoch.stopped
  else if e.running then { e with pendingPeriod := some p }
  else { e with running := true, period := p, countdown := p }

/-- The period operand of SET_EPOCH as it is written: 1..249 as 250 (R79). -/
def epochPeriod (v : Nat) : Nat := if v = 0 then 0 else max 250 v

/-- SET_EPOCH (R79). -/
def execSetEpoch (period : BitVec 16) (s : State) : Outcome :=
  deliver (.setEpoch period) (fun t =>
    ({ t with epoch := t.epoch.write (epochPeriod period.toNat) },
      takenCode (epochPeriod period.toNat != period.toNat))) s

/-- EPOCH_NOW (R81). -/
def execEpochNow (s : State) : Outcome :=
  deliver .epochNow (fun t => if t.sweep.inFlight then (t, .busy) else (t.startSweep, .done)) s

/-- An expiry loads the pending period and then the countdown (R78). -/
def Epoch.reload (e : Epoch) : Epoch :=
  { e with period := e.pendingPeriod.getD e.period, pendingPeriod := none, countdown := e.pendingPeriod.getD e.period }

/-- EPOCH_EXPIRY (R78, R80): the time left passes, the timer is reloaded, and a sweep starts or the request is
dropped with EPOCH_OVERRUN. -/
def execEpochExpiry (s : State) : Outcome :=
  .next (if s.epoch.running then
      let s1 := s.elapse s.epoch.countdown
      let s2 := { s1 with epoch := s1.epoch.reload }
      if s2.sweep.inFlight then s2.raiseD .epochOverrun else s2.startSweep
    else s)

end Sys2Proof.Machine
end

