-- ==== Sys2Proof/Machine/Dispatch.lean ====
section
/-! DEFINITION. The dispatch of a command to its meaning, one arm per row of spec/opcode_table.json. -/

namespace Sys2Proof.Machine

def exec (i : Instr) (s : State) : Host.Outcome State Fault Refusal :=
  match i with
  | .writeHeliostat index segment drop x y z area refl => Sys2Proof.Machine.execWriteHeliostat index segment drop x y z area refl s
  | .assign index point => Sys2Proof.Machine.execAssign index point s
  | .park index => Sys2Proof.Machine.execPark index s
  | .exclude index => Sys2Proof.Machine.execExclude index s
  | .includeHel index => Sys2Proof.Machine.execIncludeHel index s
  | .clearFault index => Sys2Proof.Machine.execClearFault index s
  | .releaseStranded index => Sys2Proof.Machine.execReleaseStranded index s
  | .retire index => Sys2Proof.Machine.execRetire index s
  | .readHeliostat first => Sys2Proof.Machine.execReadHeliostat first s
  | .writeAimpoint point valid x y z zone alternate => Sys2Proof.Machine.execWriteAimpoint point valid x y z zone alternate s
  | .setZone zone limit standby => Sys2Proof.Machine.execSetZone zone limit standby s
  | .readZone port first => Sys2Proof.Machine.execReadZone port first s
  | .readJoinList zone => Sys2Proof.Machine.execReadJoinList zone s
  | .readQueue zone => Sys2Proof.Machine.execReadQueue zone s
  | .setSun sx sy sz dni atc => Sys2Proof.Machine.execSetSun sx sy sz dni atc s
  | .setEpoch period => Sys2Proof.Machine.execSetEpoch period s
  | .epochNow => Sys2Proof.Machine.execEpochNow s
  | .setStagger stepMs dmax seed => Sys2Proof.Machine.execSetStagger stepMs dmax seed s
  | .setLink segment enable rate timeout quiet missLimit devLimit ptol => Sys2Proof.Machine.execSetLink segment enable rate timeout quiet missLimit devLimit ptol s
  | .restartSegment segment => Sys2Proof.Machine.execRestartSegment segment s
  | .postMaint segment index action ops => Sys2Proof.Machine.execPostMaint segment index action ops s
  | .readSegment first => Sys2Proof.Machine.execReadSegment first s
  | .readMaint segment => Sys2Proof.Machine.execReadMaint segment s
  | .setShade maps shf qual shadeMax depths => Sys2Proof.Machine.execSetShade maps shf qual shadeMax depths s
  | .readCapture sensor => Sys2Proof.Machine.execReadCapture sensor s
  | .stow => Sys2Proof.Machine.execStow s
  | .unstow => Sys2Proof.Machine.execUnstow s
  | .setForm form => Sys2Proof.Machine.execSetForm form s
  | .readStatus port => Sys2Proof.Machine.execReadStatus port s
  | .setMask port events => Sys2Proof.Machine.execSetMask port events s
  | .ackEvents port events => Sys2Proof.Machine.execAckEvents port events s
  | .setProtectLimit zone limit => Sys2Proof.Machine.execSetProtectLimit zone limit s
  | .hold zone => Sys2Proof.Machine.execHold zone s
  | .unhold zone => Sys2Proof.Machine.execUnhold zone s
  | .setRamp zone value => Sys2Proof.Machine.execSetRamp zone value s
  | .fieldDefocus => Sys2Proof.Machine.execFieldDefocus s
  | .fieldRelease => Sys2Proof.Machine.execFieldRelease s
  | .setDeadline value => Sys2Proof.Machine.execSetDeadline value s
  | .supervise period => Sys2Proof.Machine.execSupervise period s
  | .unknownCommand port code => Sys2Proof.Machine.execUnknownCommand port code s
  | .transactionDiscard port => Sys2Proof.Machine.execTransactionDiscard port s
  | .readObjectFix port => Sys2Proof.Machine.execReadObjectFix port s
  | .pinReset => Sys2Proof.Machine.execPinReset s
  | .epochExpiry => Sys2Proof.Machine.execEpochExpiry s
  | .sweepVisit => Sys2Proof.Machine.execSweepVisit s
  | .sweepComplete accrualFirst => Sys2Proof.Machine.execSweepComplete accrualFirst s
  | .solve => Sys2Proof.Machine.execSolve s
  | .solveBegun => Sys2Proof.Machine.execSolveBegun s
  | .releaseTimerExpiry segment => Sys2Proof.Machine.execReleaseTimerExpiry segment s
  | .nextItemTaken segment => Sys2Proof.Machine.execNextItemTaken segment s
  | .frameSent segment => Sys2Proof.Machine.execFrameSent segment s
  | .receptionComplete segment bytes => Sys2Proof.Machine.execReceptionComplete segment bytes s
  | .receptionBroken segment => Sys2Proof.Machine.execReceptionBroken segment s
  | .replyTimeout segment => Sys2Proof.Machine.execReplyTimeout segment s
  | .segmentLocked segment => Sys2Proof.Machine.execSegmentLocked segment s
  | .quietExpiry segment => Sys2Proof.Machine.execQuietExpiry segment s
  | .shadowSensorChange sensor level => Sys2Proof.Machine.execShadowSensorChange sensor level s
  | .shadowOnset sensor => Sys2Proof.Machine.execShadowOnset sensor s
  | .shadowEnd sensor => Sys2Proof.Machine.execShadowEnd sensor s
  | .sensorStuck sensor => Sys2Proof.Machine.execSensorStuck sensor s
  | .stowLineChange level => Sys2Proof.Machine.execStowLineChange level s
  | .stowLineQualified => Sys2Proof.Machine.execStowLineQualified s
  | .deadlineExpiry => Sys2Proof.Machine.execDeadlineExpiry s
  | .supervisionExpired => Sys2Proof.Machine.execSupervisionExpired s
  | .receptionBegins segment marker huntedUs => Sys2Proof.Machine.execReceptionBegins segment marker huntedUs s
  | .lineFallsIdle segment => Sys2Proof.Machine.execLineFallsIdle segment s
  | .rxLineActive segment => Sys2Proof.Machine.execRxLineActive segment s
  | .transactionBegin port => Sys2Proof.Machine.execTransactionBegin port s
  | .transactionEnd port => Sys2Proof.Machine.execTransactionEnd port s

end Sys2Proof.Machine
end

