-- ==== Sys2Proof/Machine/Clock.lean ====
section
/-! DEFINITION. The clock edges of a port (section 9.1): how the bytes of a transaction are shifted in up to its
delivery edge, and what is shifted out. A row of the opcode table stands for the edges of its whole command; this
file is that command edge by edge. -/

namespace Sys2Proof.Machine

/-- A rising edge of a port's clock with a level at its data input (R173). -/
def State.sckRise (s : State) (p : Port) (dsi : Bool) : State := s.setTxn p ((s.txn p).rise p dsi)

/-- The transaction's last byte is in and its delivery edge is the next one (R175). -/
def Txn.atDelivery (t : Txn) : Bool := t.phase == .completion && t.completion.isNone

/-- The last bit of an object has been shifted out and another object follows (R183). -/
def Txn.atObjectEnd (t : Txn) : Bool := t.phase == .data && t.position == t.object.length

/-- A falling edge of a port's clock (R173): the delivery edge takes the command whose bytes were received (R175); the
edge after an object's last bit fixes the next object (R183); any other presents the next bit. -/
def State.sckFall (s : State) (p : Port) : Outcome :=
  let t := s.txn p
  if t.phase = .deselected ∨ t.high = false then .next s
  else if t.atDelivery then
    match decodeWire p (t.command.toList ++ t.operands) with
    | some c => exec c s
    | none => .next (s.setTxn p t.present)
  else if t.atObjectEnd then .next (s.fixObject p)
  else .next (s.setTxn p t.present)

/-- One cycle of a port's clock. -/
def State.sckCycle (s : State) (p : Port) (dsi : Bool) : Outcome := (s.sckRise p dsi).sckFall p

/-- A master clocks a list of bits into a port: the state after them, and the levels it samples on the data output at
each rising edge. -/
def clockBits (p : Port) : List Bool → State → Option (State × List (Option Bool))
  | [], s => some (s, [])
  | b :: bs, s =>
    match s.sckCycle p b with
    | .next t => (clockBits p bs t).map fun r => (r.1, s.dso p :: r.2)
    | .fault _ => none
    | .refused _ => none

/-- The bits of a byte, the most significant first (R173). -/
def msbFirst (b : Byte) : List Bool := (List.range 8).map fun j => b.getLsbD (7 - j)

end Sys2Proof.Machine
end

