-- ==== Sys2Proof/Safety.lean ====
section
/-! DEFINITION. The terms claims are stated in: what a delivery of a port command leaves, what a settlement may
change, and the invariants of the block. -/

namespace Sys2Proof.Machine

/-! ### Port commands -/

/-- The other port. -/
def otherPort : Port → Port
  | .dispatch => .protection
  | .protection => .dispatch

/-- The port's transaction can reach the delivery edge of this command (R174, R175). -/
def State.accepts (s : State) (c : Instr) : Bool :=
  match wire c with
  | some w => (s.txn w.port).ready w
  | none => false

/-- What every delivery leaves (R168, R175, R179): the port is in COMPLETION with its code and presents the code's
first bit, the other port's transaction stands, and the supervision countdown is reloaded by the protection port
alone. -/
def Delivered (s t : State) (p : Port) (c : Code) : Prop :=
  (t.txn p).phase = .completion ∧ (t.txn p).completion = some c ∧ (t.txn p).out = c.byte.getLsbD 7
    ∧ t.txn (otherPort p) = s.txn (otherPort p)
    ∧ t.pau.supLeft =
        if p = .protection ∧ t.pau.supPeriod ≠ 0 then some (t.pau.supPeriod * 10) else s.pau.supLeft

/-- A state without what every delivery writes: the transaction records and the supervision countdown. -/
def State.bare (s : State) : State :=
  { s with dpt := Txn.reset, ppt := Txn.reset, pau := { s.pau with supLeft := none } }

/-! ### The solve, in the terms of section 1.3 -/

/-- `len` is the length of a vector, rounded down (R8, R10). -/
def IsLength (v : Vec3) (len : Nat) : Prop :=
  (len : Int) * len ≤ v.x * v.x + v.y * v.y + v.z * v.z
    ∧ v.x * v.x + v.y * v.y + v.z * v.z < ((len : Int) + 1) * (len + 1)

/-- `v` is the component `d` of a vector of length `len`, normalised (R9, R11): its magnitude `q` is that of `d` times
32768 over `len` to the nearest integer, a half away from zero, 32768 stored as 32767; its sign is that of `d`. -/
def IsUnit (len : Nat) (d v : Int) : Prop :=
  ∃ q : Nat, 2 * len * q ≤ 65536 * d.natAbs + len ∧ 65536 * d.natAbs + len < 2 * len * (q + 1)
    ∧ v = if d < 0 then -((if q < 32767 then q else 32767 : Nat) : Int) else ((if q < 32767 then q else 32767 : Nat) : Int)

/-- `t` is the vector `v` of length `len`, normalised. -/
def IsUnitVector (len : Nat) (v t : Vec3) : Prop :=
  IsUnit len v.x t.x ∧ IsUnit len v.y t.y ∧ IsUnit len v.z t.z

/-- The contribution in watts, each step rounded down before the next (R12, R13). -/
def contributionOf (u : Sun) (h : Hel) (len m : Nat) : Nat :=
  ((h.area * (if 0 < u.s.z then u.dni else 0)) * h.refl / 1024 * (if m ≤ 65535 then m else 65535) / 65536
    * (if 65536 < len * u.atc / 10000 then 0 else 65536 - len * u.atc / 10000)) / 65536 / 100

/-- How a computation toward a point at `a` with a sun ends, stage by stage (R8 to R13). -/
def AimSolution (u : Sun) (h : Hel) (a : Vec3) (r : Solved) : Prop :=
  ∃ len, IsLength (a.sub h.pos) len
    ∧ (len < 1000 → r = .geometry)
    ∧ (1000 ≤ len → ∃ d, IsUnitVector len (a.sub h.pos) d ∧ ∃ m, IsLength (u.s.add d) m
        ∧ (m < 2048 → r = .noSolution)
        ∧ (2048 ≤ m → ∃ n, IsUnitVector m (u.s.add d) n ∧ r = .found n (contributionOf u h len m)))

/-! ### Frames and receptions -/

/-- A PASS or URGENT frame fixed for heliostat `i` on segment `k` (R98, R99, R100): TRACK with its command normal, or
STOW where the current target is STOW. -/
def State.FixedFrame (s : State) (k i : Nat) (o : Origin) (h : Hel) (f : Frame) : Prop :=
  f.origin = o ∧ f.phase = .sending ∧ f.heliostat = some i ∧ f.drop = h.drop ∧ f.seq = (h.seq + 1) % 16
    ∧ f.target = some (s.currentTarget h) ∧ f.rate = some (s.seg k).rate ∧ f.orphaned = false
    ∧ (s.currentTarget h = .stow → f.kind = some .stow ∧ f.payload = [0, 0, 0, 0, 0, 0] ∧ f.normal = none)
    ∧ (s.currentTarget h ≠ .stow → f.kind = some .track ∧ f.payload = vector16 h.nCmd ∧ f.normal = some h.nCmd)

/-- What building a PASS or URGENT frame does (R99): nothing for a record that is absent, names another segment or is
EXCLUDED; a frame fixed where the tag matches the current target; a solve asked for where it does not. -/
def FrameBuilt (s t : State) (k i : Nat) (o : Origin) : Prop :=
  ((s.hel i).state = .absent ∨ (s.hel i).segment ≠ k ∨ (s.hel i).state = .excluded →
      (t.seg k).frame = none ∧ t.hels = s.hels)
  ∧ ((s.hel i).state ≠ .absent → (s.hel i).segment = k → (s.hel i).state ≠ .excluded →
      ((s.hel i).tag = ⟨s.currentTarget (s.hel i), true⟩ →
        t.hel i = { s.hel i with seq := ((s.hel i).seq + 1) % 16 } ∧ (∀ j, j ≠ i → t.hel j = s.hel j)
        ∧ ∃ f, (t.seg k).frame = some f ∧ s.FixedFrame k i o (s.hel i) f)
      ∧ ((s.hel i).tag ≠ ⟨s.currentTarget (s.hel i), true⟩ → t.hels = s.hels
        ∧ ∃ f, (t.seg k).frame = some f ∧ f.phase = .solving ∧ f.heliostat = some i ∧ f.origin = o
            ∧ f.askedDrop = (s.hel i).drop ∧ f.taken = false))

/-- The head record of a ring is returned to the dispatch master with its result (R130). -/
def RecordReturned (g g' : Seg) (result : MaintResult) (reply : Option Reply) : Prop :=
  g'.slot g.head = { g.slot g.head with owner := .dispatch, result := result, reply := reply }
    ∧ (∀ n, n ≠ g.head → g'.slot n = g.slot n) ∧ g'.head = (g.head + 1) % 16 ∧ g'.count = g.count - 1

/-- What a RETIRE or a change of address does to the segment the heliostat `i` was on (R113, R122): its urgent entry
goes and the others stand in their order; a frame to it that is SENDING or AWAITING is orphaned, and one that is
SOLVING or goes to another heliostat stands. -/
def AddressLeft (g g' : Seg) (i : Nat) : Prop :=
  g'.urgent = g.urgent.filter (· != i)
    ∧ (g.frame = none → g'.frame = none)
    ∧ (∀ f, g.frame = some f →
        (f.heliostat = some i → f.phase ≠ .solving → g'.frame = some { f with orphaned := true })
        ∧ (f.heliostat ≠ some i ∨ f.phase = .solving → g'.frame = some f))
    ∧ { g' with urgent := [], frame := none } = { g with urgent := [], frame := none }

/-- What the abandonment of a dialogue leaves on the transmit line (R114): the driver is off, and a frame that was being
sent goes on to the end of its byte under way, whenever within the frame it was stopped, and no further. -/
def SendingStopped (g g' : Seg) : Prop :=
  g'.driverEnable = false ∧ g'.txBits = []
    ∧ (∀ (f : Frame) (r : Rate) (byte stop us : Nat), g.frame = some f → f.phase = .sending → f.rate = some r →
        byte = (match r with | .fast => 10 | .medium => 40 | .slow => 160) →
        g'.txRest stop us = if us / byte ≤ stop / byte then g.txAt us else none)
    ∧ (g.driverEnable = false → g'.cut = g.cut)

/-- What a corrupt reception counts on its segment (R107, R134, R136): a CRC error, the end of the inverted run, and the
error run with the fallback to the next lower rate at its eighth; RATE_FALLBACK is raised by a fallback alone, and at
SLOW there is none. -/
def CorruptCounted (s t : State) (k : Nat) : Prop :=
  (t.seg k).crcErrors = min 65535 ((s.seg k).crcErrors + 1) ∧ (t.seg k).invertedRun = 0
    ∧ (t.seg k).inverted = (s.seg k).inverted
    ∧ ((s.seg k).errorRun < 7 → (t.seg k).errorRun = (s.seg k).errorRun + 1 ∧ (t.seg k).rate = (s.seg k).rate)
    ∧ ((s.seg k).errorRun = 7 → (t.seg k).errorRun = 0
        ∧ (t.seg k).rate = (match (s.seg k).rate with | .fast => .medium | .medium => .slow | .slow => .slow)
        ∧ ((s.seg k).rate ≠ .slow → t.dPending .rateFallback = true))
    ∧ ((s.seg k).errorRun < 7 ∨ (s.seg k).rate = .slow → t.dPending .rateFallback = s.dPending .rateFallback)

/-- What a reception that does not end the dialogue does to its wait (R105, R108): the count rises and hunting begins
again; at a count of 4 the wait ends in a miss, with the result CRC_FAIL for a maintenance record where one of the
four was corrupt. -/
def ReceptionCounted (s t : State) (k : Nat) (f : Frame) (corrupt : Bool) : Prop :=
  (f.receptions < 3 → t.hels = s.hels ∧ t.zones = s.zones ∧ (t.seg k).missed = (s.seg k).missed
      ∧ (t.seg k).frame = some { f with
          receptions := f.receptions + 1, fresh := true, receiving := false
          corruptSeen := f.corruptSeen || corrupt })
  ∧ (f.receptions = 3 → (t.seg k).frame = none
      ∧ (f.orphaned = true → t.hels = s.hels ∧ (t.seg k).missed = (s.seg k).missed)
      ∧ (∀ i, f.orphaned = false → f.heliostat = some i → (t.hel i).miss = min 15 ((s.hel i).miss + 1)
          ∧ (t.seg k).missed = min 65535 ((s.seg k).missed + 1) ∧ ∀ j, j ≠ i → t.hel j = s.hel j)
      ∧ (f.origin = .maint → t.dPending .maintReturned = true
          ∧ RecordReturned (s.seg k) (t.seg k) (if f.corruptSeen || corrupt then .crcFail else .noReply) none))

/-! ### What a settlement leaves -/

/-- 1 where a condition holds: a record counted once. -/
def one (b : Bool) : Nat := if b then 1 else 0

/-- A heliostat record without what a settlement or a move between collections may change. -/
def Hel.still (h : Hel) : Hel :=
  { h with state := .absent, onAlternate := false, dev := 0, departing := false, departureZone := none }

/-- A zone record without what a settlement or a move between collections may change. -/
def Zone.still (z : Zone) : Zone :=
  { z with joinList := [], queue := [], pendingDepartures := 0, state := .normal }

/-- A point record without the counts of R51. -/
def Point.still (p : Point) : Point := { p with diverted := 0, altLoad := 0 }

/-- A segment without its urgent queue. -/
def Seg.still (g : Seg) : Seg := { g with urgent := [] }

/-- The rest of the state, FIELD_CLEAR, the event sets and what a delivery writes left out. -/
def State.rest (s : State) : State :=
  { s.bare with
      hels := []
      points := []
      zones := []
      segs := []
      devents := 0
      pevents := 0
      pau := { s.bare.pau with fieldClear := false } }

/-- `t` differs from `s` in nothing but what settlements, departures and moves between collections may change
(sections 2.2, 3.3, 3.5). -/
def SettleFrame (s t : State) : Prop :=
  (∀ i, (t.hel i).still = (s.hel i).still) ∧ (∀ z, (t.zone z).still = (s.zone z).still)
    ∧ (∀ p, (t.point p).still = (s.point p).still) ∧ (∀ k, (t.seg k).still = (s.seg k).still)
    ∧ t.rest = s.rest

/-- A zone ends within its effective limit, or nothing is aimed at it (R66). -/
def State.zoneSafe (s : State) (z : Nat) : Prop := s.overLimit z = false ∨ (s.zone z).joinList = []

/-- Every zone ends within its effective limit, or nothing is aimed at it (R66). -/
def State.zonesSafe (s : State) : Prop := ∀ z < 12, s.zoneSafe z

/-- The effective limit of a zone in watts has room for a further flux `w` (R53, R64). -/
def State.roomFor (s : State) (z w : Nat) : Prop :=
  s.committed z + w ≤ 1000 * min (s.zone z).dispatchLimit (s.zone z).protectLimit

/-- A member `h` assigned to point `p`, shed from its zone, may be re-routed to alternate `q`: the five conditions of
R68. -/
def State.mayReroute (s : State) (h : Hel) (p q : Nat) : Prop :=
  s.pau.defocus = false ∧ h.onAlternate = false
    ∧ ((s.point p).alternate = some q ∧ q ≤ 95 ∧ (s.point q).valid = true ∧ (s.point q).zone ≠ (s.point p).zone)
    ∧ (s.zone (s.point q).zone).hold = false ∧ s.roomFor (s.point q).zone (s.pEff h)

/-- Heliostat `i` stands in its segment's urgent queue, entered at the tail where it did not, and no segment is touched
otherwise (R61). -/
def UrgentEntered (s t : State) (i : Nat) : Prop :=
  ∀ k, t.seg k = { s.seg k with urgent :=
    if k = (s.hel i).segment ∧ i ∉ (s.seg k).urgent then (s.seg k).urgent ++ [i] else (s.seg k).urgent }

/-- Member `i` of zone `z`, the last of its join list and assigned to point `p`, is re-routed to alternate `q` (R68, R51,
R61): it stays ON_TARGET, moves to the tail of the alternate zone's join list, and no departure is made. -/
def MemberRerouted (s t : State) (z i p q : Nat) : Prop :=
  t.hel i = { s.hel i with onAlternate := true } ∧ (∀ j, j ≠ i → t.hel j = s.hel j)
    ∧ (∀ y, t.zone y = { s.zone y with joinList :=
        if y = z then (s.zone y).joinList.dropLast
        else if y = (s.point q).zone then (s.zone y).joinList ++ [i] else (s.zone y).joinList })
    ∧ (∀ y, t.point y = { s.point y with
        diverted := (s.point y).diverted + one (y == p), altLoad := (s.point y).altLoad + one (y == q) })
    ∧ UrgentEntered s t i
    ∧ { t with hels := s.hels, zones := s.zones, points := s.points, segs := s.segs } = s

/-- Member `i` of zone `z`, the last of its join list and assigned to point `p`, returns to its queue (R69, R51, R61): a
departure from `z` to the tail of the queue of its assigned zone, whichever zone shed it. -/
def MemberReturned (s t : State) (z i p : Nat) : Prop :=
  t.hel i = { s.hel i with state := .queued, onAlternate := false, departing := true, departureZone := some z }
    ∧ (∀ j, j ≠ i → t.hel j = s.hel j)
    ∧ (∀ y, t.zone y = { s.zone y with
        joinList := if y = z then (s.zone y).joinList.dropLast else (s.zone y).joinList
        pendingDepartures := (s.zone y).pendingDepartures + one (y == z)
        queue := if y = (s.point p).zone then (s.zone y).queue ++ [i] else (s.zone y).queue })
    ∧ (∀ y, t.point y = { s.point y with
        diverted := (s.point y).diverted - one ((s.hel i).onAlternate && y == p)
        altLoad := (s.point y).altLoad - one ((s.hel i).onAlternate && (s.point p).alternate == some y) })
    ∧ UrgentEntered s t i
    ∧ { t with hels := s.hels, zones := s.zones, points := s.points, segs := s.segs } = s

/-- Heliostat `i`, behind the first `m` of the queue of zone `z`, may be granted once those are: its P_valid is set and
there is room for it beside them (R71). -/
def State.mayGrant (s : State) (z m i : Nat) : Prop :=
  (s.hel i).pValid = true
    ∧ s.roomFor z ((((s.zone z).queue.take m).map fun j => s.pEff (s.hel j)).sum + s.pEff (s.hel i))

/-- The grant and closing steps of zone `z` grant the first `n` of its queue, in its order, and no more (R71, R72, R63):
each of them had P_valid set and room after those before it; the one behind them, where RJ_MAX allows another, had not;
each joins the list's tail ON_TARGET on its assigned point and leaves the departure set. -/
def GrantsMade (s t : State) (z n : Nat) : Prop :=
  n ≤ (s.zone z).rjMax ∧ n ≤ (s.zone z).queue.length
    ∧ (∀ m i, m < n → (s.zone z).queue[m]? = some i → s.mayGrant z m i)
    ∧ (∀ i, n < (s.zone z).rjMax → (s.zone z).queue[n]? = some i → ¬ s.mayGrant z n i)
    ∧ (∀ i, t.hel i = if i ∈ (s.zone z).queue.take n then
          { s.hel i with
              state := .onTarget
              onAlternate := false
              dev := 0
              departing := false
              departureZone := if (s.hel i).departing then none else (s.hel i).departureZone }
        else s.hel i)
    ∧ (∀ y, t.zone y = { s.zone y with
        joinList := if y = z then (s.zone y).joinList ++ (s.zone y).queue.take n else (s.zone y).joinList
        queue := if y = z then (s.zone y).queue.drop n else (s.zone y).queue
        state := if y = z then (if n < (s.zone z).rjMax ∧ n < (s.zone z).queue.length then .full else .normal)
          else (s.zone y).state
        pendingDepartures := (s.zone y).pendingDepartures - (((s.zone z).queue.take n).filter fun i =>
          (s.hel i).departing && (s.hel i).departureZone == some y).length })
    ∧ { t with hels := s.hels, zones := s.zones } = s

/-! ### Cloud shadows -/

/-- What a qualified change of sensor `k` leaves beside its own channel (R149, R150): every segment whose map holds the
sensor has the shade that its map and the sensor states give, and no other channel, setting or record field but what
settlements may change is touched. -/
def ShadeFollowed (s t : State) (k : Fin 8) : Prop :=
  (∀ j : Fin 8, (t.shade j).map = (s.shade j).map
      ∧ (t.shade j).shaded = if (s.shade j).map.getLsbD k then t.derivedShade j else (s.shade j).shaded)
    ∧ (∀ j, j ≠ k.val → t.channel j = s.channel j)
    ∧ t.scu.shf = s.scu.shf ∧ t.scu.qual = s.scu.qual ∧ t.scu.shadeMax = s.scu.shadeMax
    ∧ (∀ i, (t.hel i).still = (s.hel i).still) ∧ (∀ z, (t.zone z).still = (s.zone z).still)

/-- An onset on a SUNLIT channel `k` that began at `start` (R141, R144): SHADED from then, with a record opened where
the buffer has room, and otherwise the overrun counted and CAPTURE_OVERRUN raised. -/
def SensorOnset (s t : State) (k : Fin 8) (c : Channel) (start : Millis) : Prop :=
  t.channel k = (if c.records.length < c.depth then
      { c with state := .shaded, cand := none, shadeStart := start, records := c.records ++ [⟨start, none⟩] }
    else { c with state := .shaded, cand := none, shadeStart := start, overruns := min 255 (c.overruns + 1) })
  ∧ (c.depth ≤ c.records.length → t.dPending .captureOverrun = true)
  ∧ ShadeFollowed s t k

/-- An end on a SHADED or STUCK channel `k` that began at `stop` (R142): SUNLIT, its open record closed with the time
from its onset, which is never the OPEN mark. The shade start stands (the model's choice, log 24). -/
def SensorEnd (s t : State) (k : Fin 8) (c : Channel) (stop : Millis) : Prop :=
  t.channel k = { c with
      state := .sunlit
      cand := none
      records := c.records.map (fun r => match r.duration with
        | some _ => r
        | none => ⟨r.onset, some (if stop - r.onset = 0xFFFFFFFF#32 then 0xFFFFFFFE#32 else stop - r.onset)⟩) }
  ∧ ShadeFollowed s t k

/-! ### Protective actions -/

/-- The state a stow engagement leaves a heliostat in (R159). -/
def HState.stowedBy : HState → HState
  | .onTarget | .queued | .standby | .stowed => .stowed
  | .absent => .absent
  | .offline => .offline
  | .excluded => .excluded
  | .faulted => .faulted

/-- The ON_TARGET heliostats of a zone's join list, by their records. -/
def State.aimedAt (s : State) (z : Nat) : List Nat :=
  s.present.dedup.filter fun i => (s.hel i).state == .onTarget && s.joinZone (s.hel i) == z

/-- Every ON_TARGET heliostat of `s` leaves the receiver as a departure (R61): it is departing from the zone it was
counted in, stands in its segment's urgent queue, and is counted in the zone's pending departures. -/
def AllDeparted (s t : State) : Prop :=
  (∀ i, (s.hel i).state = .onTarget → (t.hel i).departing = true
      ∧ (t.hel i).departureZone = some (s.joinZone (s.hel i)) ∧ (t.hel i).onAlternate = false
      ∧ i ∈ (t.seg (s.hel i).segment).urgent)
    ∧ (∀ z, (t.zone z).pendingDepartures = (s.zone z).pendingDepartures + (s.aimedAt z).length)

/-- What a stow engagement does (R159, R137). -/
def StowEngaged (s t : State) : Prop :=
  (∀ i, (t.hel i).state = (s.hel i).state.stowedBy) ∧ AllDeparted s t
    ∧ (∀ k < 8, (t.seg k).owed = if (s.seg k).state = .disabled then (s.seg k).owed else true)
    ∧ t.dPending .stowChange = true ∧ t.pPending .stowChange = true

/-- What a stow release does (R160, R137, R76). A STOWED heliostat with an assignment and TRACKING_ERROR clear is
queued, and its zone's settlement may grant it; every other heliostat that is in no join list and no rejoin queue keeps
its state. -/
def StowReleased (s t : State) : Prop :=
  (∀ i, (s.hel i).state = .stowed → (s.hel i).assignment.isSome → (s.hel i).trackingError = false →
      (t.hel i).state = .queued ∨ (t.hel i).state = .onTarget)
    ∧ (∀ i, (s.hel i).state ≠ .stowed ∨ (s.hel i).assignment = none ∨ (s.hel i).trackingError = true →
        (∀ z, i ∉ (s.zone z).joinList ∧ i ∉ (s.zone z).queue) → (t.hel i).state = (s.hel i).state)
    ∧ (∀ k < 8, (t.seg k).owed = false)
    ∧ t.dPending .stowChange = true ∧ t.pPending .stowChange = true ∧ t.zonesSafe

/-- What a qualified change of the stow line does (R156, R158): the line request changes and the candidate is cleared;
without a stow command, stow engages or is released by it. -/
def LineQualified (s t : State) : Prop :=
  t.pau.asserted = (!s.pau.asserted) ∧ t.pau.lineCand = none ∧ t.pau.stowCommand = s.pau.stowCommand
    ∧ t.pau.stowSampled = s.pau.asserted ∧ t.pins = { s.pins with stowreqN := s.pau.asserted }
    ∧ (s.pau.stowCommand = true → t.hels = s.hels ∧ t.zones = s.zones ∧ t.devents = s.devents)
    ∧ (s.pau.stowCommand = false → s.pau.asserted = false → StowEngaged s t)
    ∧ (s.pau.stowCommand = false → s.pau.asserted = true → StowReleased s t)
    ∧ ∀ i, (t.hel i).still = (s.hel i).still

/-- What a defocus engagement with cause `c` does (R162). -/
def DefocusEngaged (s t : State) (c : Cause) : Prop :=
  (∀ i, (t.hel i).state = if (s.hel i).state = .onTarget then .queued else (s.hel i).state) ∧ AllDeparted s t
    ∧ (∀ i, (s.hel i).state = .onTarget → i ∈ (t.zone (s.assignedZone (s.hel i))).queue)
    ∧ t.pau.defocus = true ∧ t.pau.cause = c ∧ t.pau.lateCount = 0
    ∧ t.pau.deadlineLeft = some (s.pau.deadline * 100)
    ∧ t.dPending .defocusChange = true ∧ (t.pau.fieldClear = true → t.pPending .defocusComplete = true)

/-! ### Invariants -/

/-- Every table is in its canonical form. -/
def State.tablesOk (s : State) : Bool :=
  Tab.wf Hel.empty s.hels && Tab.wf Point.reset s.points && Tab.wf Zone.reset s.zones
    && Tab.wf Seg.reset s.segs && s.segs.all (fun e => Tab.wf Slot.reset e.2.slots)
    && Tab.wf none s.rsg.timers && Tab.wf Channel.reset s.scu.channels && Tab.wf SegShade.reset s.scu.shades

/-- FIELD_CLEAR shows its condition (R170). -/
def State.clearOk (s : State) : Prop := s.pau.fieldClear = s.fieldIsClear

/-- The part-wide settings, timers and counts lie in their ranges (R3, R5, R20, R45, R46, R78, R91, R93, R95, R139,
R155). -/
def State.unitsOk (s : State) : Prop :=
  (1 ≤ s.link.missLimit ∧ s.link.missLimit ≤ 15) ∧ (1 ≤ s.link.devLimit ∧ s.link.devLimit ≤ 15)
    ∧ (30000 ≤ s.link.ptol ∧ s.link.ptol ≤ 32767)
    ∧ s.sun.dni ≤ 1500 ∧ s.sun.atc ≤ 4095
    ∧ (∀ u, s.snapshot = some u → u.dni ≤ 1500 ∧ u.atc ≤ 4095)
    ∧ (s.epoch.running = true → 250 ≤ s.epoch.period) ∧ s.epoch.period ≤ 65535
    ∧ (∀ p, s.epoch.pendingPeriod = some p → 250 ≤ p ∧ p ≤ 65535) ∧ s.epoch.countdown ≤ 65535
    ∧ s.rsg.stepMs ≤ 255 ∧ s.rsg.dmax ≤ 255 ∧ s.rsg.reg ≠ 0
    ∧ s.scu.shf ≤ 256 ∧ s.scu.qual ≤ 255 ∧ s.scu.shadeMax ≤ 255
    ∧ (1 ≤ s.pau.deadline ∧ s.pau.deadline ≤ 600) ∧ s.pau.supPeriod ≤ 255
    ∧ (∀ d, s.pau.deadlineLeft = some d → d ≤ 60000) ∧ (∀ d, s.pau.supLeft = some d → d ≤ 2550)
    ∧ s.sweep.count ≤ 65535 ∧ s.lastServed ≤ 7 ∧ (∀ k d, s.timer k = some d → d ≤ 2040)

/-- The settings and counts of zones, segments and channels lie in their ranges (R52, R97, R103, R117, R132, R134,
R136, R139, R143). -/
def State.blocksOk (s : State) : Prop :=
  (∀ z, (1 ≤ (s.zone z).rjMax ∧ (s.zone z).rjMax ≤ 32) ∧ (s.zone z).dispatchLimit ≤ 65535
        ∧ (s.zone z).protectLimit ≤ 65535)
    ∧ (∀ k, (1 ≤ (s.seg k).timeout ∧ (s.seg k).timeout ≤ 255) ∧ (1 ≤ (s.seg k).quiet ∧ (s.seg k).quiet ≤ 255)
        ∧ (s.seg k).head ≤ 15 ∧ (s.seg k).count ≤ 16 ∧ (s.seg k).invertedRun ≤ 3 ∧ (s.seg k).errorRun ≤ 7
        ∧ (s.seg k).answered ≤ 65535 ∧ (s.seg k).missed ≤ 65535 ∧ (s.seg k).crcErrors ≤ 65535
        ∧ (∀ d, (s.seg k).quietLeft = some d → d ≤ 2550)
        ∧ (∀ f, (s.seg k).frame = some f → f.remaining ≤ 25500 ∧ f.receptions ≤ 3 ∧ f.seq ≤ 15))
    ∧ (∀ k, (1 ≤ (s.channel k).depth ∧ (s.channel k).depth ≤ 8) ∧ (s.channel k).overruns ≤ 255
        ∧ (s.channel k).records.length ≤ (s.channel k).depth)

/-- Every component of a vector lies in −`b`..`b`. -/
def Vec3.within (b : Int) (v : Vec3) : Prop :=
  (-b ≤ v.x ∧ v.x ≤ b) ∧ (-b ≤ v.y ∧ v.y ≤ b) ∧ (-b ≤ v.z ∧ v.z ≤ b)

/-- A heliostat's identity, normals, counts and contributions lie in their ranges (R1, R14, R21, R22, R24, R25). -/
def Hel.inRange (h : Hel) : Prop :=
  h.segment ≤ 7 ∧ h.drop ≤ 250 ∧ h.pos.within 1000000 ∧ h.nCmd.within 32767 ∧ (∀ n, h.nRep = some n → n.within 32767)
    ∧ h.area ≤ 65535 ∧ h.refl ≤ 1024 ∧ h.fault ≤ 15 ∧ h.seq ≤ 15 ∧ h.miss ≤ 15 ∧ h.dev ≤ 15
    ∧ h.pClear ≤ 983025 ∧ h.pNew ≤ 983025

/-- Every record is in range, and so is the snapshot's irradiance, with which contributions are formed (R5). -/
def State.recordsOk (s : State) : Prop :=
  (∀ i, (s.hel i).inRange) ∧ s.sun.dni ≤ 1500 ∧ (∀ u, s.snapshot = some u → u.dni ≤ 1500)

/-- No two present records share segment and drop (R32). -/
def State.addressesUnique (s : State) : Prop :=
  ∀ i j, (s.hel i).state ≠ .absent → (s.hel j).state ≠ .absent → (s.hel i).segment = (s.hel j).segment →
    (s.hel i).drop = (s.hel j).drop → i = j

/-- The sum of a figure over the heliostat records. -/
def State.tally (s : State) (f : Hel → Nat) : Nat := (s.hels.map fun e => f e.2).sum

/-- The flux a record strands in a zone, in W. -/
def Hel.strandedIn (z : Nat) (h : Hel) : Nat :=
  match h.stranded with
  | some st => if st.zone = z then st.amount else 0
  | none => 0

/-- What a record's state says of its other fields, and the ranges of those that number points and zones (R23, R25,
R26, R27, R28, R47, R51, R52, R63). -/
def State.recordBooked (s : State) (h : Hel) : Prop :=
  (h.state = .absent → h.assignment = none ∧ h.departing = false ∧ h.stranded = none)
    ∧ (h.state = .onTarget ∨ h.state = .queued → h.assignment.isSome)
    ∧ (h.state = .onTarget → h.departing = false)
    ∧ (h.onAlternate = true → h.state = .onTarget ∧ (s.alternateOf h).isSome)
    ∧ (h.stranded.isSome → h.state = .offline ∨ h.state = .faulted)
    ∧ (h.departing = h.departureZone.isSome)
    ∧ (∀ p, h.assignment = some p → p ≤ 95)
    ∧ (∀ z, h.departureZone = some z → z < 12) ∧ (∀ st, h.stranded = some st → st.zone < 12)
    ∧ (s.stowInEffect = true → h.state ≠ .onTarget ∧ h.state ≠ .queued ∧ h.state ≠ .standby)

/-- A point's fields and counts (R23, R48, R49, R51): the counts are the numbers of the records that they count, and a
point that is not valid has none. -/
def State.pointBooked (s : State) (p : Nat) : Prop :=
  (s.point p).zone < 12 ∧ (∀ q, (s.point p).alternate = some q → q ≤ 95)
    ∧ ((s.point p).valid = false → (s.point p).inUse = 0 ∧ (s.point p).altLoad = 0)
    ∧ (s.point p).inUse = s.tally (fun h => one (h.assignment == some p))
    ∧ (s.point p).diverted = s.tally (fun h => one (h.onAlternate && h.assignment == some p))
    ∧ (s.point p).altLoad = s.tally (fun h => one (h.onAlternate && s.alternateOf h == some p))

/-- A zone's collections hold exactly the heliostats whose records name them, each once, and its sums are the records'
(R60, R61, R65). -/
def State.zoneBooked (s : State) (z : Nat) : Prop :=
  (s.zone z).joinList.Nodup ∧ (s.zone z).queue.Nodup
    ∧ (∀ i, i ∈ (s.zone z).joinList ↔ (s.hel i).state = .onTarget ∧ s.joinZone (s.hel i) = z)
    ∧ (∀ i, i ∈ (s.zone z).queue ↔ (s.hel i).state = .queued ∧ s.assignedZone (s.hel i) = z)
    ∧ (s.zone z).pendingDepartures = s.tally (fun h => one (h.departureZone == some z))
    ∧ (s.zone z).stranded = s.tally (Hel.strandedIn z)

/-- The books of the field are right: the records, points and zones agree with one another. -/
def State.booksOk (s : State) : Prop :=
  s.tablesOk = true ∧ (∀ i, s.recordBooked (s.hel i)) ∧ (∀ p, s.pointBooked p) ∧ (∀ z, s.zoneBooked z)
    ∧ (∀ i, (s.hel i).state ≠ .absent → i ≤ 1999) ∧ s.pau.lateCount ≤ 2000

/-- The settings that the protection master alone writes (R53, R55, R56, R164, R167). -/
def State.protectionSettings (s : State) (z : Nat) : Nat × Bool × Nat × Nat × Nat :=
  ((s.zone z).protectLimit, (s.zone z).hold, (s.zone z).rjMax, s.pau.deadline, s.pau.supPeriod)

end Sys2Proof.Machine
end

