-- ==== Sys2Proof/WellFormed.lean ====
section
/-! DEFINITION. Which commands are well formed: those the environment can send. -/

namespace Sys2Proof

/-- A complete reception has fourteen bytes (R104, R199). A protection event-set operand is one byte
(R188). A byte is answered UNKNOWN only where it names no command of its port (R174). Hunting cannot outlast the
largest reply timeout, 255 x 100 us (R103). -/
def Instr.wellFormed : Instr → Bool
  | .receptionComplete _ bytes => bytes.length == 14
  | .setMask .protection m => m.toNat < 256
  | .ackEvents .protection m => m.toNat < 256
  | .unknownCommand p c => operandLength p c == none
  | .receptionBegins _ _ us => us ≤ 25500
  | _ => true

end Sys2Proof
end

