-- ==== Sys2Proof/Certificates/Slice0/Obligations.lean ====
section
/-! DEFINITION. The statements for the provers. -/

open Sys2Proof Sys2Proof.Machine

/-! ### The block as a whole -/

/-- A step takes the command at the front of the queue and is its meaning on the state with the queue's rest. -/
def Obligations.StepRunsFront : Prop :=
  ∀ (s : State) (c : Instr) (rest : List Instr), s.pending = c :: rest →
    step s = exec c { s with pending := rest }

/-- On an empty queue one millisecond passes (the model's choice, log 2): the counter advances, every running
countdown falls by one, and a hunting wait by 1000 µs unless it began within that millisecond (log 19), a running
measure of active time, which begins at −1000, rises by 1000 µs (the model's reading, log 9), the level of STOWREQ_N is sampled, only events
are queued, and among them every expiry and sample that is due (one at the qualified level too, where it drops a
candidate) and a lock exactly where the measure is past 40 byte times; nothing else changes. -/
def Obligations.IdleTick : Prop :=
  ∀ s : State, s.pending = [] →
    ∃ t, step s = .next t ∧ t.ms = s.ms + 1
      ∧ (∀ k < 8, t.timer k = (s.timer k).map (· - 1))
      ∧ (∀ k < 8, (t.seg k).quietLeft = (s.seg k).quietLeft.map (· - 1)
          ∧ (t.seg k).activeUs = (s.seg k).activeUs.map (· + 1000)
          ∧ (∀ f, (s.seg k).frame = some f → (t.seg k).frame =
              if f.phase = .awaiting ∧ f.receiving = false then
                some { f with remaining := if f.fresh = true then f.remaining else f.remaining - 1000, fresh := false }
              else some f)
          ∧ ((s.seg k).frame = none → (t.seg k).frame = none)
          ∧ { t.seg k with quietLeft := none, activeUs := none, frame := none }
              = { s.seg k with quietLeft := none, activeUs := none, frame := none })
      ∧ t.epoch = { s.epoch with countdown := if s.epoch.running then s.epoch.countdown - 1 else s.epoch.countdown }
      ∧ t.pau = { s.pau with
          deadlineLeft := s.pau.deadlineLeft.map (· - 1)
          supLeft := s.pau.supLeft.map (· - 1)
          stowSampled := s.pins.stowreqN }
      ∧ { t.rsg with timers := [] } = { s.rsg with timers := [] }
      ∧ (∀ c ∈ t.pending, wire c = none)
      ∧ ((t.epoch.running = true ∧ t.epoch.countdown = 0) ↔ .epochExpiry ∈ t.pending)
      ∧ (t.pau.deadlineLeft = some 0 ↔ .deadlineExpiry ∈ t.pending)
      ∧ (t.pau.supLeft = some 0 ↔ .supervisionExpired ∈ t.pending)
      ∧ (∀ k : Fin 8, (t.timer k = some 0 ↔ .releaseTimerExpiry k ∈ t.pending)
          ∧ ((t.seg k).state = .locked ∧ (t.seg k).quietLeft = some 0 ↔ .quietExpiry k ∈ t.pending)
          ∧ ((∃ f, (t.seg k).frame = some f ∧ f.phase = .awaiting ∧ f.receiving = false ∧ f.remaining = 0)
              ↔ .replyTimeout k ∈ t.pending)
          ∧ ((t.channel k).state = .shaded → t.scu.shadeMax ≠ 0 →
              t.scu.shadeMax * 1000 < since t.ms (t.channel k).shadeStart → .sensorStuck k ∈ t.pending)
          ∧ ((∃ us : Int, (t.seg k).activeUs = some us
              ∧ (match (t.seg k).rate with | .fast => 400 | .medium => 1600 | .slow => 6400) < us)
              ↔ .segmentLocked k ∈ t.pending)
          ∧ ∀ level : Bool, level = t.pins.shd.getLsbD k →
              (level = ((t.channel k).state == .sunlit) →
                ((t.channel k).cand.isSome ↔ .shadowSensorChange k level ∈ t.pending))
              ∧ (level ≠ ((t.channel k).state == .sunlit) →
                ((t.channel k).cand = none ↔ .shadowSensorChange k level ∈ t.pending)
                ∧ (∀ cd, (t.channel k).cand = some cd →
                    (since cd.deadline cd.start ≤ since t.ms cd.start ↔
                      (if (t.channel k).state = .sunlit then Instr.shadowOnset k else .shadowEnd k) ∈ t.pending))))
      ∧ (t.pins.stowreqN = (!t.pau.asserted) →
          (t.pau.lineCand.isSome ↔ .stowLineChange t.pins.stowreqN ∈ t.pending))
      ∧ (t.pins.stowreqN = t.pau.asserted →
          (t.pau.lineCand = none ↔ .stowLineChange t.pins.stowreqN ∈ t.pending)
          ∧ (∀ cd, t.pau.lineCand = some cd →
              (since cd.deadline cd.start ≤ since t.ms cd.start ↔ .stowLineQualified ∈ t.pending)))
      ∧ { t with ms := s.ms, segs := s.segs, epoch := s.epoch, pau := s.pau, rsg := s.rsg, pending := [] } = s

/-- What pin reset leaves of the ports and of the settings written through the protection port (R198). -/
def Obligations.PinResetPorts : Prop :=
  ∀ s : State, ∃ t, exec .pinReset s = .next t
    ∧ t.devents = 0 ∧ t.pevents = 0
    ∧ (∀ e : DEvent, t.dPending e = false ∧ t.dmask.getLsbD e.pos = true)
    ∧ (∀ e : PEvent, t.pPending e = false ∧ t.pmask.getLsbD e.pos = true)
    ∧ t.dpt = Txn.reset ∧ t.ppt = Txn.reset ∧ (t.txn .protection).phase = .deselected
    ∧ (∀ z, (t.zone z).dispatchLimit = 0 ∧ (t.zone z).protectLimit = 0 ∧ (t.zone z).hold = false
        ∧ (t.zone z).rjMax = 4)
    ∧ t.pau.defocus = false ∧ t.pau.deadline = 100 ∧ t.pau.supPeriod = 0 ∧ t.pau.supLeft = none
    ∧ (∀ p, t.attention p = false)

/-- What pin reset leaves of every table and unit; a frame that is being sent goes on to the end of its byte under way.
That its driver is off at once and the stopped transmission's record stands is the model's reading (log 30). The input
levels and the waiting commands are kept (the model's choice, log 8). -/
def Obligations.PinResetUnits : Prop :=
  ∀ s : State, ∃ t, exec .pinReset s = .next t
    ∧ t.ms = 0 ∧ (∀ i, t.hel i = Hel.empty) ∧ (∀ p, t.point p = Point.reset) ∧ (∀ z, t.zone z = Zone.reset)
    ∧ (∀ k, t.seg k = { Seg.reset with cut := (t.seg k).cut }) ∧ (∀ k : Fin 8, SendingStopped (s.seg k) (t.seg k))
    ∧ t.sun = ⟨false, ⟨0, 0, 0⟩, 0, 0⟩ ∧ t.snapshot = none
    ∧ t.sweep = ⟨false, [], none, 0⟩ ∧ t.lastServed = 7 ∧ t.solveOut = none ∧ t.epoch = ⟨false, 0, none, 0⟩
    ∧ t.rsg.stepMs = 0 ∧ t.rsg.dmax = 0 ∧ t.rsg.reg = 1 ∧ (∀ k, t.timer k = none)
    ∧ t.link = ⟨3, 3, 32766⟩ ∧ (∀ k, t.channel k = Channel.reset) ∧ (∀ k, t.shade k = SegShade.reset)
    ∧ t.scu.shf = 256 ∧ t.scu.qual = 5 ∧ t.scu.shadeMax = 0
    ∧ t.stowInEffect = false ∧ t.pau.cause = .none ∧ t.pau.fieldClear = true ∧ t.form = .full
    ∧ t.pau.lineCand = none ∧ t.pau.deadlineLeft = none ∧ t.pau.lateCount = 0
    ∧ t.pins = s.pins ∧ t.pending = s.pending

/-! ### Transactions -/

/-- A fall of a select line that was high puts its port in COMMAND with an empty record, the first bit of 0xFF on its
data output. A rise of one that was low, before or after the delivery edge, returns the record to its reset values,
the output at high impedance. Neither touches anything else, the other port and the supervision countdown included, so
a transaction that is discarded leaves no trace. -/
def Obligations.TransactionEdges : Prop :=
  (∀ (s : State) (p : Port), s.selectLow p = false →
      ∃ t, exec (.transactionBegin p) s = .next t
        ∧ t.txn p = ⟨.command, 0, none, [], none, none, [], 0, 0, false, true⟩ ∧ t.selectLow p = true ∧ t.dso p = some true
        ∧ t.txn (otherPort p) = s.txn (otherPort p) ∧ t.selectLow (otherPort p) = s.selectLow (otherPort p)
        ∧ { t with dpt := s.dpt, ppt := s.ppt, pins := s.pins } = s)
  ∧ (∀ (s : State) (p : Port) (c : Instr), c = .transactionEnd p ∨ c = .transactionDiscard p →
      s.selectLow p = true →
      ∃ t, exec c s = .next t
        ∧ t.txn p = ⟨.deselected, 0, none, [], none, none, [], 0, 0, false, true⟩ ∧ t.selectLow p = false ∧ t.dso p = none
        ∧ t.txn (otherPort p) = s.txn (otherPort p) ∧ t.selectLow (otherPort p) = s.selectLow (otherPort p)
        ∧ { t with dpt := s.dpt, ppt := s.ppt, pins := s.pins } = s)
  ∧ (∀ (s t : State) (p : Port), s.selectLow p = false → s.txn p = Txn.reset →
      exec (.transactionBegin p) s = .next t → exec (.transactionDiscard p) t = .next s)

/-- A byte that names no command of its port is answered UNKNOWN and changes nothing; a byte that names one is
not answered so: a row that says it is has no effect (the model's choice, log 1). -/
def Obligations.UnknownCommand : Prop :=
  ∀ (s : State) (p : Port) (b : Byte), s.accepts (.unknownCommand p b) = true →
    (operandLength p b = none →
      ∃ t, exec (.unknownCommand p b) s = .next t ∧ Delivered s t p .unknown ∧ t.bare = s.bare)
    ∧ (operandLength p b ≠ none → exec (.unknownCommand p b) s = .next s)

/-- The edge after an object's last bit: the next object of the read is fixed as the state stands and its first bit
presented, or after the last one the port enters FILL. Nothing but the port's record changes (the count of draws is
the model's own, log 7). Before the delivery edge, or in another phase, nothing is fixed (the model's
choice, log 1). -/
def Obligations.ReadObjectFix : Prop :=
  ∀ (s : State) (p : Port),
    ((s.txn p).completion.isSome → (s.txn p).phase = .completion ∨ (s.txn p).phase = .data →
      ∃ t, exec (.readObjectFix p) s = .next t ∧ t.txn (otherPort p) = s.txn (otherPort p)
        ∧ { t with dpt := s.dpt, ppt := s.ppt, draws := s.draws } = s
        ∧ (t.txn p).completion = (s.txn p).completion ∧ (t.txn p).position = 0
        ∧ (match (s.txn p).cursor with
            | some c => (t.txn p).phase = .data ∧ (t.txn p).object = t.objectAt c ∧ (t.txn p).cursor = c.next
                ∧ (t.txn p).out = ((t.objectAt c).getD 0 0xFF).getLsbD 7
            | none => (t.txn p).phase = .fill ∧ (t.txn p).object = [] ∧ (t.txn p).out = true))
    ∧ ((s.txn p).completion = none ∨ ((s.txn p).phase ≠ .completion ∧ (s.txn p).phase ≠ .data) →
        exec (.readObjectFix p) s = .next s)

/-- SET_FORM names FULL by 0 and COMPACT by 1, and any other code is refused with RANGE. SET_MASK writes the whole
mask of its port, and it changes no event set. -/
def Obligations.PortSettings : Prop :=
  (∀ (s : State) (b : Byte), s.accepts (.setForm b) = true →
      ∃ t, exec (.setForm b) s = .next t
        ∧ Delivered s t .dispatch (if b = 0 ∨ b = 1 then .done else .range)
        ∧ t.form = (if b = 0 then .full else if b = 1 then .compact else s.form)
        ∧ t.bare = { s with form := t.form }.bare)
  ∧ (∀ (s : State) (m : BitVec 24),
      (s.accepts (.setMask .dispatch m) = true →
        ∃ t, exec (.setMask .dispatch m) s = .next t ∧ Delivered s t .dispatch .done
          ∧ (∀ e : DEvent, t.dmask.getLsbD e.pos = m.getLsbD e.pos) ∧ t.bare = { s with dmask := t.dmask }.bare)
      ∧ (s.accepts (.setMask .protection m) = true →
        ∃ t, exec (.setMask .protection m) s = .next t ∧ Delivered s t .protection .done
          ∧ (∀ e : PEvent, t.pmask.getLsbD e.pos = m.getLsbD e.pos) ∧ t.bare = { s with pmask := t.pmask }.bare))

/-- ACK_EVENTS removes from its port's event set the events that its operand names, and no other (R195). A port drives
its attention output low exactly while one of its events is both pending and unmasked. -/
def Obligations.EventsAndAttention : Prop :=
  (∀ (s : State) (m : BitVec 24),
      (s.accepts (.ackEvents .dispatch m) = true →
        ∃ t, exec (.ackEvents .dispatch m) s = .next t ∧ Delivered s t .dispatch .done
          ∧ (∀ e : DEvent, t.dPending e = (s.dPending e && !m.getLsbD e.pos))
          ∧ t.bare = { s with devents := t.devents }.bare
          ∧ t.attention .protection = s.attention .protection
          ∧ ((∀ e : DEvent, s.dPending e = true → s.dmask.getLsbD e.pos = false → m.getLsbD e.pos = true) →
              t.attention .dispatch = false))
      ∧ (s.accepts (.ackEvents .protection m) = true →
        ∃ t, exec (.ackEvents .protection m) s = .next t ∧ Delivered s t .protection .done
          ∧ (∀ e : PEvent, t.pPending e = (s.pPending e && !m.getLsbD e.pos))
          ∧ t.bare = { s with pevents := t.pevents }.bare
          ∧ t.attention .dispatch = s.attention .dispatch
          ∧ ((∀ e : PEvent, s.pPending e = true → s.pmask.getLsbD e.pos = false → m.getLsbD e.pos = true) →
              t.attention .protection = false)))
  ∧ (∀ s : State,
      (s.attention .dispatch = true ↔ ∃ e : DEvent, s.dPending e = true ∧ s.dmask.getLsbD e.pos = false)
      ∧ (s.attention .protection = true ↔ ∃ e : PEvent, s.pPending e = true ∧ s.pmask.getLsbD e.pos = false))

/-- READ_STATUS returns one object on each port, 168 bytes on the dispatch port and 40 on the protection port, as the
delivery leaves the state (its own reload of the supervision countdown included: the model's choice, log 15).
READ_JOIN_LIST and READ_QUEUE return one list of a zone; none of these changes anything. READ_CAPTURE returns the
channel as it found it, removes its oldest record where that is closed, and clears its overrun count. -/
def Obligations.SingleReads : Prop :=
  (∀ (s : State) (p : Port), s.accepts (.readStatus p) = true →
      ∃ t, exec (.readStatus p) s = .next t ∧ Delivered s t p .done ∧ t.bare = s.bare
        ∧ (t.txn p).object = t.statusObject p ∧ (t.txn p).cursor = none
        ∧ (t.txn p).object.length = (match p with | .dispatch => 168 | .protection => 40))
  ∧ (∀ (s : State) (b : Byte),
      (s.accepts (.readJoinList b) = true → b.toNat ≤ 11 →
        ∃ t, exec (.readJoinList b) s = .next t ∧ Delivered s t .dispatch .done ∧ t.bare = s.bare
          ∧ (t.txn .dispatch).object = listObject b.toNat (s.zone b.toNat).joinList)
      ∧ (s.accepts (.readQueue b) = true → b.toNat ≤ 11 →
        ∃ t, exec (.readQueue b) s = .next t ∧ Delivered s t .dispatch .done ∧ t.bare = s.bare
          ∧ (t.txn .dispatch).object = listObject b.toNat (s.zone b.toNat).queue)
      ∧ (s.accepts (.readCapture b) = true → b.toNat ≤ 7 →
        ∃ t, exec (.readCapture b) s = .next t ∧ Delivered s t .dispatch .done
          ∧ (t.txn .dispatch).object = s.captureObject b.toNat ∧ (t.txn .dispatch).object.length = 12
          ∧ (t.channel b.toNat).overruns = 0
          ∧ (t.channel b.toNat).records = (match (s.channel b.toNat).records with
              | r :: rest => if r.duration = none then r :: rest else rest
              | [] => [])
          ∧ { t.channel b.toNat with overruns := 0, records := [] }
              = { s.channel b.toNat with overruns := 0, records := [] }
          ∧ (∀ j, j ≠ b.toNat → t.channel j = s.channel j)
          ∧ t.bare = { s with scu := { s.scu with channels := t.scu.channels } }.bare))

/-- A read of a sequence of objects fixes the first object at its delivery edge and stands at the next; a first
number out of range is refused with RANGE. Nothing but the port's record and the count of draws (the model's own,
log 7) changes. -/
def Obligations.SequenceReads : Prop :=
  ∀ (s : State) (c : Instr) (p : Port) (cur : Cursor) (ok : Prop),
    ((∃ i, c = .readHeliostat i ∧ p = .dispatch ∧ cur = .heliostat i.toNat s.form ∧ (ok ↔ i.toNat ≤ 1999))
      ∨ (∃ z, c = .readZone p z ∧ cur = .zone z.toNat ∧ (ok ↔ z.toNat ≤ 11))
      ∨ (∃ k, c = .readSegment k ∧ p = .dispatch ∧ cur = .segment k.toNat ∧ (ok ↔ k.toNat ≤ 7))
      ∨ (∃ k, c = .readMaint k ∧ p = .dispatch ∧ cur = .maint k.toNat 0 ∧ (ok ↔ k.toNat ≤ 7))) →
    s.accepts c = true →
    ∃ t, exec c s = .next t
      ∧ (ok → Delivered s t p .done ∧ (t.txn p).object = t.objectAt cur ∧ (t.txn p).cursor = cur.next
          ∧ t.bare = { s with draws := s.draws + 1 }.bare)
      ∧ (¬ ok → Delivered s t p .range ∧ (t.txn p).object = [] ∧ t.bare = s.bare)

/-- A command whose number names nothing is refused with RANGE, a heliostat command that names an absent record with
STATE; WRITE_HELIOSTAT checks state, ranges, room and address in that order (STATE, RANGE, FULL, DUPLICATE); ASSIGN
of an EXCLUDED record is refused with STATE and a point that is no valid receiver point with RANGE; CLEAR_FAULT of a
record that is not FAULTED with STATE, and so is RELEASE_STRANDED of one that is neither OFFLINE nor FAULTED or holds no
stranded amount; SET_LINK with an unknown rate with RANGE. A refused command changes nothing. -/
def Obligations.RefusedChangesNothing : Prop :=
  ∀ (s : State) (c : Instr) (p : Port) (code : Code),
    ((∃ i : BitVec 16, 1999 < i.toNat ∧ code = .range ∧ p = .dispatch
        ∧ ((∃ q, c = .assign i q) ∨ c = .park i ∨ c = .exclude i ∨ c = .includeHel i ∨ c = .clearFault i
          ∨ c = .releaseStranded i ∨ c = .retire i
          ∨ ∃ k d x y z a r, c = .writeHeliostat i k d x y z a r))
      ∨ (∃ i : BitVec 16, i.toNat ≤ 1999 ∧ (s.hel i.toNat).state = .absent ∧ code = .state ∧ p = .dispatch
        ∧ ((∃ q, c = .assign i q) ∨ c = .park i ∨ c = .exclude i ∨ c = .includeHel i ∨ c = .clearFault i
          ∨ c = .releaseStranded i ∨ c = .retire i))
      ∨ (∃ i : BitVec 16, i.toNat ≤ 1999 ∧ (s.hel i.toNat).state ≠ .absent ∧ code = .state ∧ p = .dispatch
        ∧ ((c = .clearFault i ∧ (s.hel i.toNat).state ≠ .faulted)
          ∨ (c = .releaseStranded i ∧ (((s.hel i.toNat).state ≠ .offline ∧ (s.hel i.toNat).state ≠ .faulted)
            ∨ (s.hel i.toNat).stranded = none))))
      ∨ (∃ b : Byte, 11 < b.toNat ∧ code = .range
        ∧ ((p = .dispatch ∧ ((∃ l q, c = .setZone b l q) ∨ c = .readJoinList b ∨ c = .readQueue b))
          ∨ (p = .protection ∧ ((∃ l, c = .setProtectLimit b l) ∨ c = .hold b ∨ c = .unhold b ∨ ∃ v, c = .setRamp b v))))
      ∨ (∃ b : Byte, 7 < b.toNat ∧ code = .range ∧ p = .dispatch
        ∧ (c = .restartSegment b ∨ c = .readCapture b ∨ (∃ i a o, c = .postMaint b i a o)
          ∨ ∃ e r t q m d u, c = .setLink b e r t q m d u))
      ∨ (∃ b e r tm q m d u, c = .setLink b e r tm q m d u ∧ 2 < r.toNat ∧ code = .range ∧ p = .dispatch)
      ∨ (∃ (i : BitVec 16) (q : Byte), c = .assign i q ∧ i.toNat ≤ 1999 ∧ p = .dispatch
        ∧ (((s.hel i.toNat).state = .excluded ∧ code = .state)
          ∨ ((s.hel i.toNat).state ≠ .absent ∧ (s.hel i.toNat).state ≠ .excluded ∧ code = .range ∧ q ≠ 255
            ∧ (95 < q.toNat ∨ (s.point q.toNat).valid = false))))
      ∨ (∃ (i : BitVec 16) (k d : Byte) (x y z : BitVec 32) (a r : BitVec 16) (h : Hel) (writable ranged : Bool),
        c = .writeHeliostat i k d x y z a r ∧ i.toNat ≤ 1999 ∧ p = .dispatch ∧ h = s.hel i.toNat
        ∧ (writable = true ↔ (h.state = .absent ∨ h.state = .excluded ∨ (h.state = .stowed ∧ h.assignment = none))
            ∧ h.departing = false)
        ∧ (ranged = true ↔ k.toNat ≤ 7 ∧ 1 ≤ d.toNat ∧ d.toNat ≤ 250 ∧ 1 ≤ a.toNat ∧ r.toNat ≤ 1024
            ∧ ∀ c ∈ [x.toInt, y.toInt, z.toInt], -1000000 ≤ c ∧ c ≤ 1000000)
        ∧ ((writable = false ∧ code = .state)
          ∨ (writable = true ∧ ranged = false ∧ code = .range)
          ∨ (writable = true ∧ ranged = true ∧ 250 ≤ (s.othersIn k.toNat i.toNat).length ∧ code = .full)
          ∨ (writable = true ∧ ranged = true ∧ (s.othersIn k.toNat i.toNat).length < 250
            ∧ (∃ j ∈ s.othersIn k.toNat i.toNat, (s.hel j).drop = d.toNat) ∧ code = .duplicate)))) →
    s.accepts c = true →
    ∃ t, exec c s = .next t ∧ Delivered s t p code ∧ t.bare = s.bare

/-! ### The heliostat table -/

/-- WRITE_HELIOSTAT on an empty record whose operands lie in their ranges, on a segment with room and without its
drop: the record becomes OFFLINE with the operands as its identity and every other field at its empty-record
value; nothing else changes. -/
def Obligations.WriteHeliostatFresh : Prop :=
  ∀ (s : State) (i : BitVec 16) (k d : Byte) (x y z : BitVec 32) (a r : BitVec 16),
    s.accepts (.writeHeliostat i k d x y z a r) = true →
    i.toNat ≤ 1999 → s.hel i.toNat = Hel.empty →
    k.toNat ≤ 7 → 1 ≤ d.toNat → d.toNat ≤ 250 →
    (∀ c ∈ [x.toInt, y.toInt, z.toInt], -1000000 ≤ c ∧ c ≤ 1000000) → 1 ≤ a.toNat → r.toNat ≤ 1024 →
    (s.othersIn k.toNat i.toNat).length < 250 → (∀ j ∈ s.othersIn k.toNat i.toNat, (s.hel j).drop ≠ d.toNat) →
    ∃ t, exec (.writeHeliostat i k d x y z a r) s = .next t ∧ Delivered s t .dispatch .done
      ∧ t.hel i.toNat = { Hel.empty with
          state := .offline
          segment := k.toNat
          drop := d.toNat
          pos := ⟨x.toInt, y.toInt, z.toInt⟩
          area := a.toNat
          refl := r.toNat }
      ∧ (∀ j, j ≠ i.toNat → t.hel j = s.hel j) ∧ t.bare = { s with hels := t.hels }.bare

/-- WRITE_HELIOSTAT on a STOWED record without assignment or an EXCLUDED one that is not departing: the identity
is written, tag, flags, P_valid and sweep mark are cleared, and a new address besides clears the drive fields,
makes a STOWED record OFFLINE, removes its urgent entry, and orphans a frame to it that is SENDING or AWAITING; a
SOLVING frame, one to another heliostat and the other urgent entries stand. The sweep in flight no longer visits it. -/
def Obligations.WriteHeliostatPresent : Prop :=
  ∀ (s : State) (i : BitVec 16) (k d : Byte) (x y z : BitVec 32) (a r : BitVec 16) (h : Hel) (moved : Bool),
    h = s.hel i.toNat → moved = (h.segment != k.toNat || h.drop != d.toNat) →
    s.accepts (.writeHeliostat i k d x y z a r) = true →
    i.toNat ≤ 1999 → (h.state = .excluded ∨ (h.state = .stowed ∧ h.assignment = none)) → h.departing = false →
    k.toNat ≤ 7 → 1 ≤ d.toNat → d.toNat ≤ 250 →
    (∀ c ∈ [x.toInt, y.toInt, z.toInt], -1000000 ≤ c ∧ c ≤ 1000000) → 1 ≤ a.toNat → r.toNat ≤ 1024 →
    (s.othersIn k.toNat i.toNat).length < 250 → (∀ j ∈ s.othersIn k.toNat i.toNat, (s.hel j).drop ≠ d.toNat) →
    ∃ t, exec (.writeHeliostat i k d x y z a r) s = .next t ∧ Delivered s t .dispatch .done
      ∧ t.hel i.toNat = { h with
          state := if moved && h.state == .stowed then .offline else h.state
          segment := k.toNat
          drop := d.toNat
          pos := ⟨x.toInt, y.toInt, z.toInt⟩
          area := a.toNat
          refl := r.toNat
          tag := ⟨h.tag.target, false⟩
          geometry := false
          noSolution := false
          pValid := false
          mark := false
          seq := if moved then 0 else h.seq
          miss := if moved then 0 else h.miss
          dev := if moved then 0 else h.dev
          nRep := if moved then none else h.nRep
          motion := if moved then .none else h.motion
          fault := if moved then 0 else h.fault }
      ∧ t.sweep = { s.sweep with remaining := s.sweep.remaining.filter (· != i.toNat) }
      ∧ (moved = true → AddressLeft (s.seg h.segment) (t.seg h.segment) i.toNat) ∧ (moved = false → t.segs = s.segs)
      ∧ (∀ j, j ≠ i.toNat → t.hel j = s.hel j) ∧ (∀ j, j ≠ h.segment → t.seg j = s.seg j)
      ∧ t.bare = { s with hels := t.hels, segs := t.segs, sweep := t.sweep }.bare

/-- ASSIGN to a record that is not EXCLUDED. Of a valid receiver point: the assignment is written and its in-use count
rises, P_valid, sweep mark, on_alternate and TRACKING_ERROR are cleared, and, while stow is not in effect, a heliostat
that is neither OFFLINE nor FAULTED is QUEUED at the tail of the point's zone. A QUEUED one leaves its old queue; an
ON_TARGET one leaves its join list as a departure, with its zone, its pending count and its urgent entry. While stow
is in effect its state stays. Of NONE: the assignment is removed and such a heliostat becomes STOWED. -/
def Obligations.Assign : Prop :=
  (∀ (s : State) (i : BitVec 16) (p : Byte) (h : Hel), h = s.hel i.toNat →
      s.accepts (.assign i p) = true → i.toNat ≤ 1999 → h.state ≠ .absent → h.state ≠ .excluded →
      p.toNat ≤ 95 → (s.point p.toNat).valid = true →
      ∃ t, exec (.assign i p) s = .next t ∧ Delivered s t .dispatch .done
        ∧ (t.hel i.toNat).assignment = some p.toNat
        ∧ (t.hel i.toNat).pValid = false ∧ (t.hel i.toNat).mark = false ∧ (t.hel i.toNat).onAlternate = false
        ∧ (t.hel i.toNat).trackingError = false
        ∧ (if s.stowInEffect = true ∨ h.state = .offline ∨ h.state = .faulted then (t.hel i.toNat).state = h.state
            else (t.hel i.toNat).state = .queued
              ∧ (t.zone (s.point p.toNat).zone).queue.getLast? = some i.toNat)
        ∧ (t.hel i.toNat).departing = (h.departing || (!s.stowInEffect && h.state == .onTarget))
        ∧ (s.stowInEffect = false → h.state = .onTarget →
            (t.hel i.toNat).departureZone = some (s.joinZone h) ∧ i.toNat ∈ (t.seg h.segment).urgent
            ∧ (∀ z, (t.zone z).joinList = if z = s.joinZone h then (s.zone z).joinList.erase i.toNat
                else (s.zone z).joinList)
            ∧ (∀ z, (t.zone z).pendingDepartures = (s.zone z).pendingDepartures + if z = s.joinZone h then 1 else 0))
        ∧ (s.stowInEffect = true ∨ h.state ≠ .onTarget →
            (t.hel i.toNat).departureZone = h.departureZone
            ∧ ∀ z, (t.zone z).joinList = (s.zone z).joinList
                ∧ (t.zone z).pendingDepartures = (s.zone z).pendingDepartures)
        ∧ (∀ z, (t.zone z).queue =
            (if s.stowInEffect = false ∧ h.state = .queued ∧ z = s.assignedZone h then (s.zone z).queue.erase i.toNat
              else (s.zone z).queue)
            ++ if z = (s.point p.toNat).zone ∧ s.stowInEffect = false ∧ h.state ≠ .offline ∧ h.state ≠ .faulted then
                [i.toNat] else [])
        ∧ (h.assignment ≠ some p.toNat → (t.point p.toNat).inUse = (s.point p.toNat).inUse + 1)
        ∧ (∀ q, h.assignment = some q → q ≠ p.toNat → (t.point q).inUse = (s.point q).inUse - 1)
        ∧ t.sweep = { s.sweep with remaining := s.sweep.remaining.filter (· != i.toNat) }
        ∧ (∀ j, j ≠ i.toNat → t.hel j = s.hel j) ∧ (∀ z, (t.zone z).still = (s.zone z).still)
        ∧ (∀ q, some q ≠ h.assignment → q ≠ p.toNat → (t.point q).still = (s.point q).still)
        ∧ (∀ k, (t.seg k).still = (s.seg k).still)
        ∧ t.devents = s.devents ∧ t.rest = { s with sweep := t.sweep }.rest)
  ∧ (∀ (s : State) (i : BitVec 16) (h : Hel), h = s.hel i.toNat →
      s.accepts (.assign i 255) = true → i.toNat ≤ 1999 → h.state ≠ .absent → h.state ≠ .excluded →
      ∃ t, exec (.assign i 255) s = .next t ∧ Delivered s t .dispatch .done
        ∧ (t.hel i.toNat).assignment = none
        ∧ (t.hel i.toNat).pValid = false ∧ (t.hel i.toNat).mark = false ∧ (t.hel i.toNat).onAlternate = false
        ∧ (t.hel i.toNat).trackingError = false
        ∧ (t.hel i.toNat).state =
            (if s.stowInEffect = true ∨ h.state = .offline ∨ h.state = .faulted then h.state else .stowed)
        ∧ (t.hel i.toNat).departing = (h.departing || (!s.stowInEffect && h.state == .onTarget))
        ∧ (s.stowInEffect = false → h.state = .onTarget →
            (t.hel i.toNat).departureZone = some (s.joinZone h) ∧ i.toNat ∈ (t.seg h.segment).urgent
            ∧ (∀ z, (t.zone z).joinList = if z = s.joinZone h then (s.zone z).joinList.erase i.toNat
                else (s.zone z).joinList)
            ∧ (∀ z, (t.zone z).pendingDepartures = (s.zone z).pendingDepartures + if z = s.joinZone h then 1 else 0))
        ∧ (s.stowInEffect = true ∨ h.state ≠ .onTarget →
            (t.hel i.toNat).departureZone = h.departureZone
            ∧ ∀ z, (t.zone z).joinList = (s.zone z).joinList
                ∧ (t.zone z).pendingDepartures = (s.zone z).pendingDepartures)
        ∧ (∀ z, (t.zone z).queue =
            if s.stowInEffect = false ∧ h.state = .queued ∧ z = s.assignedZone h then (s.zone z).queue.erase i.toNat
            else (s.zone z).queue)
        ∧ (∀ q, h.assignment = some q → (t.point q).inUse = (s.point q).inUse - 1)
        ∧ t.sweep = { s.sweep with remaining := s.sweep.remaining.filter (· != i.toNat) }
        ∧ (∀ j, j ≠ i.toNat → t.hel j = s.hel j) ∧ (∀ z, (t.zone z).still = (s.zone z).still)
        ∧ (∀ q, some q ≠ h.assignment → (t.point q).still = (s.point q).still)
        ∧ (∀ k, (t.seg k).still = (s.seg k).still)
        ∧ t.devents = s.devents ∧ t.rest = { s with sweep := t.sweep }.rest)

/-- PARK (R38): a QUEUED heliostat leaves its rejoin queue, an ON_TARGET one its join list as a departure, and it
becomes STANDBY with its assignment, P_valid and sweep mark kept; any other present record is refused with STATE. -/
def Obligations.Park : Prop :=
  ∀ (s : State) (i : BitVec 16) (h : Hel), h = s.hel i.toNat →
    s.accepts (.park i) = true → i.toNat ≤ 1999 → h.state ≠ .absent →
    ∃ t, exec (.park i) s = .next t
      ∧ (h.state = .queued → Delivered s t .dispatch .done
          ∧ t.hel i.toNat = { h with state := .standby }
          ∧ (∀ z, t.zone z = if z = s.assignedZone h then { s.zone z with queue := (s.zone z).queue.erase i.toNat }
              else s.zone z)
          ∧ (∀ j, j ≠ i.toNat → t.hel j = s.hel j)
          ∧ t.bare = { s with hels := t.hels, zones := t.zones }.bare)
      ∧ (h.state = .onTarget → Delivered s t .dispatch .done
          ∧ t.hel i.toNat = { h with
              state := .standby
              onAlternate := false
              departing := true
              departureZone := some (s.joinZone h) }
          ∧ (∀ z, t.zone z = if z = s.joinZone h then
                { s.zone z with
                    joinList := (s.zone z).joinList.erase i.toNat
                    pendingDepartures := (s.zone z).pendingDepartures + 1 }
              else s.zone z)
          ∧ i.toNat ∈ (t.seg h.segment).urgent ∧ (∀ j, j ≠ i.toNat → t.hel j = s.hel j)
          ∧ t.devents = s.devents ∧ SettleFrame s t)
      ∧ (h.state ≠ .queued → h.state ≠ .onTarget → Delivered s t .dispatch .state ∧ t.bare = s.bare)

/-- EXCLUDE takes a STOWED, STANDBY or OFFLINE heliostat that neither is departing nor holds a stranded amount; it
is refused with STATE otherwise. Its urgent entry is removed and only its state changes. -/
def Obligations.Exclude : Prop :=
  ∀ (s : State) (i : BitVec 16) (h : Hel), h = s.hel i.toNat →
    s.accepts (.exclude i) = true → i.toNat ≤ 1999 → h.state ≠ .absent →
    ∃ t, exec (.exclude i) s = .next t
      ∧ (if (h.state = .stowed ∨ h.state = .standby ∨ h.state = .offline) ∧ h.stranded = none ∧ h.departing = false then
          Delivered s t .dispatch .done ∧ t.hel i.toNat = { h with state := .excluded }
            ∧ (t.seg h.segment).urgent = (s.seg h.segment).urgent.filter (· != i.toNat)
            ∧ (∀ j, j ≠ i.toNat → t.hel j = s.hel j) ∧ (∀ k, (t.seg k).still = (s.seg k).still)
            ∧ (∀ k, k ≠ h.segment → t.seg k = s.seg k)
            ∧ t.bare = { s with hels := t.hels, segs := t.segs }.bare
        else Delivered s t .dispatch .state ∧ t.bare = s.bare)

/-- INCLUDE (R40): an EXCLUDED heliostat with an assignment, stow not in effect and TRACKING_ERROR clear is QUEUED
at its zone's tail; otherwise it becomes STOWED. Any other present record is refused with STATE. -/
def Obligations.Include : Prop :=
  ∀ (s : State) (i : BitVec 16) (h : Hel), h = s.hel i.toNat →
    s.accepts (.includeHel i) = true → i.toNat ≤ 1999 → h.state ≠ .absent →
    ∃ t, exec (.includeHel i) s = .next t
      ∧ (h.state = .excluded → Delivered s t .dispatch .done
          ∧ (if h.assignment.isSome ∧ s.stowInEffect = false ∧ h.trackingError = false then
              t.hel i.toNat = { h with state := .queued }
                ∧ (∀ z, t.zone z = if z = s.assignedZone h then { s.zone z with queue := (s.zone z).queue ++ [i.toNat] }
                    else s.zone z)
            else t.hel i.toNat = { h with state := .stowed } ∧ t.zones = s.zones)
          ∧ (∀ j, j ≠ i.toNat → t.hel j = s.hel j)
          ∧ t.bare = { s with hels := t.hels, zones := t.zones }.bare)
      ∧ (h.state ≠ .excluded → Delivered s t .dispatch .state ∧ t.bare = s.bare)

/-- CLEAR_FAULT of a FAULTED heliostat and RELEASE_STRANDED of an OFFLINE or FAULTED one that holds a stranded
amount: the stranded amount leaves the zone, the departure ends, and CLEAR_FAULT makes the record OFFLINE with its
deviation count 0. No zone settles; a zone that was OVER and is brought within its limit by the release becomes HELD
where its hold is set and NORMAL otherwise, and every other zone keeps its state. -/
def Obligations.FaultReleases : Prop :=
  ∀ (s : State) (i : BitVec 16) (h : Hel) (c : Instr), h = s.hel i.toNat → i.toNat ≤ 1999 → s.accepts c = true →
    (c = .clearFault i ∧ h.state = .faulted)
      ∨ (c = .releaseStranded i ∧ (h.state = .offline ∨ h.state = .faulted) ∧ h.stranded.isSome) →
    ∃ t, exec c s = .next t ∧ Delivered s t .dispatch .done
      ∧ { t.hel i.toNat with departureZone := none } = { h with
          state := if c = .clearFault i then .offline else h.state
          dev := if c = .clearFault i then 0 else h.dev
          stranded := none
          departing := false
          departureZone := none }
      ∧ (∀ st, h.stranded = some st → (t.zone st.zone).stranded = (s.zone st.zone).stranded - st.amount)
      ∧ (∀ z, h.departing = true → h.departureZone = some z →
          (t.zone z).pendingDepartures = (s.zone z).pendingDepartures - 1)
      ∧ (∀ z, (t.zone z).joinList = (s.zone z).joinList ∧ (t.zone z).queue = (s.zone z).queue
          ∧ { (t.zone z).still with stranded := 0 } = { (s.zone z).still with stranded := 0 })
      ∧ (∀ z, (∀ st, h.stranded = some st → st.zone ≠ z) → (t.zone z).stranded = (s.zone z).stranded)
      ∧ (∀ z, (t.zone z).state =
          if (∃ st, h.stranded = some st ∧ st.zone = z) ∧ (s.zone z).state = .over
              ∧ t.committed z ≤ 1000 * min (s.zone z).dispatchLimit (s.zone z).protectLimit then
            (if (s.zone z).hold = true then .held else .normal)
          else (s.zone z).state)
      ∧ (∀ j, j ≠ i.toNat → t.hel j = s.hel j) ∧ t.segs = s.segs ∧ t.points = s.points
      ∧ t.devents = s.devents ∧ t.rest = s.rest

/-- RETIRE of a STOWED, EXCLUDED or OFFLINE record without a stranded amount empties the record, ends its
departure, lowers the in-use count of its point, removes its urgent entry and its place in the sweep, and orphans a
frame to it that is SENDING or AWAITING; a SOLVING frame, one to another heliostat and the other urgent entries stand.
It is refused with STATE otherwise. -/
def Obligations.Retire : Prop :=
  ∀ (s : State) (i : BitVec 16) (h : Hel), h = s.hel i.toNat →
    s.accepts (.retire i) = true → i.toNat ≤ 1999 → h.state ≠ .absent →
    ∃ t, exec (.retire i) s = .next t
      ∧ (if (h.state = .stowed ∨ h.state = .excluded ∨ h.state = .offline) ∧ h.stranded = none then
          Delivered s t .dispatch .done ∧ t.hel i.toNat = Hel.empty
            ∧ (∀ q, h.assignment = some q → (t.point q).inUse = (s.point q).inUse - 1)
            ∧ (∀ q, some q ≠ h.assignment → t.point q = s.point q)
            ∧ (∀ z, h.departing = true → h.departureZone = some z →
                (t.zone z).pendingDepartures = (s.zone z).pendingDepartures - 1)
            ∧ (∀ z, { t.zone z with pendingDepartures := 0 } = { s.zone z with pendingDepartures := 0 })
            ∧ AddressLeft (s.seg h.segment) (t.seg h.segment) i.toNat
            ∧ (∀ k, k ≠ h.segment → t.seg k = s.seg k)
            ∧ t.sweep = { s.sweep with remaining := s.sweep.remaining.filter (· != i.toNat) }
            ∧ (∀ j, j ≠ i.toNat → t.hel j = s.hel j)
            ∧ t.devents = s.devents ∧ t.rest = { s with sweep := t.sweep }.rest
        else Delivered s t .dispatch .state ∧ t.bare = s.bare)

/-! ### Aim points and zones -/

/-- WRITE_AIMPOINT makes six checks in order. RANGE: a number above 111; with the valid flag set a coordinate out of
range, or for a receiver point a zone above 11 or an alternate that is no receiver point, the point itself, not valid,
or in the zone written. STATE: a valid receiver point in use, or aimed at as an alternate, would be invalidated or
change its zone; one with diverted heliostats would change its alternate. One that fails a check changes nothing. One
that passes writes position, zone and alternate of a receiver point, or the position alone of a standby point; with the
valid flag clear the point becomes invalid and loses its alternate. The counts and every other point stand; so
do the target tags of heliostats waiting at a moved standby point (the model's choice, log 29). -/
def Obligations.WriteAimpoint : Prop :=
  ∀ (s : State) (p v : Byte) (x y z : BitVec 32) (zone alt : Byte) (a : Point) (other : Option Nat)
    (ranged used : Bool),
    s.accepts (.writeAimpoint p v x y z zone alt) = true → a = s.point p.toNat →
    other = (if v = 0 ∨ alt = 255 then none else some alt.toNat) →
    (ranged = true ↔ 111 < p.toNat
      ∨ (v ≠ 0 ∧ ∃ c ∈ [x.toInt, y.toInt, z.toInt], c < -1000000 ∨ 1000000 < c)
      ∨ (p.toNat ≤ 95 ∧ v ≠ 0 ∧ 11 < zone.toNat)
      ∨ (p.toNat ≤ 95 ∧ v ≠ 0 ∧ alt ≠ 255
        ∧ (95 < alt.toNat ∨ alt = p ∨ (s.point alt.toNat).valid = false ∨ (s.point alt.toNat).zone = zone.toNat))) →
    (used = true ↔ p.toNat ≤ 95
      ∧ ((a.valid = true ∧ (v = 0 ∨ zone.toNat ≠ a.zone) ∧ (0 < a.inUse ∨ 0 < a.altLoad))
        ∨ (other ≠ a.alternate ∧ 0 < a.diverted))) →
    ∃ t, exec (.writeAimpoint p v x y z zone alt) s = .next t
      ∧ (ranged = true → Delivered s t .dispatch .range ∧ t.bare = s.bare)
      ∧ (ranged = false → used = true → Delivered s t .dispatch .state ∧ t.bare = s.bare)
      ∧ (ranged = false → used = false → Delivered s t .dispatch .done
          ∧ t.point p.toNat =
              (if v = 0 then { a with valid := false, alternate := none }
                else if p.toNat ≤ 95 then
                  { a with valid := true, pos := ⟨x.toInt, y.toInt, z.toInt⟩, zone := zone.toNat, alternate := other }
                else { a with valid := true, pos := ⟨x.toInt, y.toInt, z.toInt⟩ })
          ∧ (∀ q, q ≠ p.toNat → t.point q = s.point q) ∧ t.bare = { s with points := t.points }.bare)

/-- SET_RAMP (R56): RJ_MAX takes the value, 0 written as 1 and one above 32 as 32, either returning CLAMPED; a zone
above 11 is refused with RANGE. The zone does not settle: nothing else of it or of any zone changes. -/
def Obligations.SetRamp : Prop :=
  ∀ (s : State) (z v : Byte), s.accepts (.setRamp z v) = true →
    ∃ t, exec (.setRamp z v) s = .next t
      ∧ (z.toNat ≤ 11 →
          Delivered s t .protection (if v.toNat = 0 ∨ 32 < v.toNat then .clamped else .done)
          ∧ t.zone z.toNat = { s.zone z.toNat with
              rjMax := if v.toNat = 0 then 1 else if 32 < v.toNat then 32 else v.toNat }
          ∧ (∀ y, y ≠ z.toNat → t.zone y = s.zone y) ∧ t.bare = { s with zones := t.zones }.bare)
      ∧ (11 < z.toNat → Delivered s t .protection .range ∧ t.bare = s.bare)

/-- HOLD sets the hold, and a zone newly held is HELD at once unless it is OVER; nothing settles. UNHOLD of a held
zone clears the hold and settles every zone; of a zone not held it changes nothing. -/
def Obligations.HoldUnhold : Prop :=
  ∀ (s : State) (z : Byte), z.toNat ≤ 11 →
    (s.accepts (.hold z) = true →
      ∃ t, exec (.hold z) s = .next t ∧ Delivered s t .protection .done
        ∧ t.zone z.toNat = { s.zone z.toNat with
            hold := true
            state := if (s.zone z.toNat).hold = true ∨ (s.zone z.toNat).state = .over then (s.zone z.toNat).state
              else .held }
        ∧ (∀ y, y ≠ z.toNat → t.zone y = s.zone y) ∧ t.bare = { s with zones := t.zones }.bare)
    ∧ (s.accepts (.unhold z) = true →
      ∃ t, exec (.unhold z) s = .next t ∧ Delivered s t .protection .done
        ∧ (t.zone z.toNat).hold = false
        ∧ (if (s.zone z.toNat).hold = true then
            SettleFrame (s.modZone z.toNat fun zn => { zn with hold := false }) t ∧ t.zonesSafe
          else t.bare = s.bare))

/-- A taken write of either limit is written to its own field and settles the zone, which ends within the lesser of
the two limits or with nothing aimed at it. SET_ZONE writes the standby point too, and refuses with RANGE one that
is neither 96..111 nor NONE. -/
def Obligations.LimitWrites : Prop :=
  ∀ (s : State) (z : Byte) (l : BitVec 16), z.toNat ≤ 11 →
    (s.accepts (.setProtectLimit z l) = true →
      ∃ t, exec (.setProtectLimit z l) s = .next t ∧ Delivered s t .protection .done
        ∧ (t.zone z.toNat).protectLimit = l.toNat
        ∧ SettleFrame (s.modZone z.toNat fun zn => { zn with protectLimit := l.toNat }) t
        ∧ (t.committed z.toNat ≤ 1000 * min (s.zone z.toNat).dispatchLimit l.toNat
            ∨ (t.zone z.toNat).joinList = []))
    ∧ (∀ b : Byte, s.accepts (.setZone z l b) = true →
      ∃ t, exec (.setZone z l b) s = .next t
        ∧ (b = 255 ∨ (96 ≤ b.toNat ∧ b.toNat ≤ 111) → Delivered s t .dispatch .done
          ∧ (t.zone z.toNat).dispatchLimit = l.toNat
          ∧ (t.zone z.toNat).standby = (if b = 255 then none else some b.toNat)
          ∧ SettleFrame (s.modZone z.toNat fun zn =>
              { zn with dispatchLimit := l.toNat, standby := if b = 255 then none else some b.toNat }) t
          ∧ (t.committed z.toNat ≤ 1000 * min l.toNat (s.zone z.toNat).protectLimit
            ∨ (t.zone z.toNat).joinList = []))
        ∧ (b ≠ 255 → b.toNat < 96 ∨ 111 < b.toNat → Delivered s t .dispatch .range ∧ t.bare = s.bare))

/-- A settlement leaves its zone within its effective limit, or with nothing aimed at it; its state is OVER exactly
where it is still above the limit, HELD where it is held otherwise; at most RJ_MAX heliostats become ON_TARGET by it,
and none while stow or defocus is in effect or the zone is held; and it changes nothing but what settlements may. While
it is above the limit the newest member is shed: re-routed where R68 allows it, otherwise returned to the tail of its
assigned zone's queue as a departure. Above the limit with nothing aimed at it, it only becomes OVER. Within it, the head
of its queue is granted, one at a time, up to RJ_MAX or the first that is not P_valid or does not fit. -/
def Obligations.SettlementHoldsLimit : Prop :=
  (∀ (s t : State) (z : Nat), t = s.settle z →
      t.zoneSafe z ∧ SettleFrame s t
        ∧ ((t.zone z).state = .over ↔ t.overLimit z = true)
        ∧ (t.overLimit z = false → (s.zone z).hold = true → (t.zone z).state = .held)
        ∧ ((t.zone z).state = .full → (t.zone z).queue ≠ []))
  ∧ (∀ (s : State) (z : Nat) (l : List Nat), l.Nodup →
      (∀ i ∈ l, (s.hel i).state ≠ .onTarget ∧ ((s.settle z).hel i).state = .onTarget) → l.length ≤ (s.zone z).rjMax)
  ∧ (∀ (s : State) (z : Nat), (s.zone z).queue.length ≤ ((s.settle z).zone z).queue.length + (s.zone z).rjMax)
  ∧ (∀ (s : State) (z : Nat), s.stowInEffect = true ∨ s.pau.defocus = true ∨ (s.zone z).hold = true →
      ∀ i, (s.hel i).state ≠ .onTarget → ((s.settle z).hel i).state ≠ .onTarget)
  ∧ (∀ (s : State) (z : Nat), s.overLimit z = true → (s.zone z).joinList ≠ [] →
      s.settle z = ((s.shedOne z).settle z).raiseBoth .zoneShed .zoneShed)
  ∧ (∀ (s : State) (z i p : Nat), (s.zone z).joinList.getLast? = some i → (s.zone z).joinList.Nodup →
      (s.hel i).assignment = some p → s.joinZone (s.hel i) = z → (s.hel i).state = .onTarget →
      (∀ q, s.mayReroute (s.hel i) p q → MemberRerouted s (s.shedOne z) z i p q)
      ∧ ((∀ q, ¬ s.mayReroute (s.hel i) p q) → MemberReturned s (s.shedOne z) z i p))
  ∧ (∀ (s : State) (z : Nat), s.overLimit z = true → (s.zone z).joinList = [] →
      (s.settle z).zone z = { s.zone z with state := .over } ∧ (∀ y, y ≠ z → (s.settle z).zone y = s.zone y)
      ∧ ((s.zone z).state ≠ .over → (s.settle z).dPending .zoneOver = true ∧ (s.settle z).pPending .zoneOver = true)
      ∧ ((s.zone z).state = .over → (s.settle z).devents = s.devents ∧ (s.settle z).pevents = s.pevents)
      ∧ { s.settle z with zones := s.zones, devents := s.devents, pevents := s.pevents } = s)
  ∧ (∀ (s : State) (z : Nat), s.overLimit z = false →
      if s.stowInEffect = true ∨ s.pau.defocus = true ∨ (s.zone z).hold = true then
        (s.settle z).zone z = { s.zone z with state := if (s.zone z).hold = true then .held else .normal }
          ∧ (∀ y, y ≠ z → (s.settle z).zone y = s.zone y) ∧ { s.settle z with zones := s.zones } = s
      else (s.zone z).queue.Nodup → ∃ n, GrantsMade s (s.settle z) z n)

/-- A settlement of all zones leaves every zone within its effective limit, or with nothing aimed at it, whatever
was re-routed between zones on the way. Every step keeps the books: each ON_TARGET heliostat stands in exactly one
join list and each QUEUED one in exactly one queue, each once and by its record, and each point's counts, each zone's
pending departures and each zone's stranded flux are the sums over the records. While the books are right and every
record names one of the eight segments, every step keeps every zone within its limit or with nothing aimed at it. -/
def Obligations.SettleAllHoldsLimits : Prop :=
  (∀ s : State, s.settleAll.zonesSafe)
  ∧ (∀ s t : State, s.booksOk → step s = .next t → t.booksOk)
  ∧ (∀ s t : State, s.booksOk → s.recordsOk → s.zonesSafe → step s = .next t → t.zonesSafe)

/-! ### Sun, epochs, sweeps, solves -/

/-- SET_SUN (R4, R5): components of −32768 are taken as −32767; a vector whose sum of squares is within 2^24 of
2^30 is accepted and written with DNI and ATC limited; any other is held, which raises SUN_HELD and writes
nothing. -/
def Obligations.SetSun : Prop :=
  ∀ (s : State) (sx sy sz dni atc : BitVec 16) (x y z : Int),
    s.accepts (.setSun sx sy sz dni atc) = true →
    x = (if sx.toInt = -32768 then -32767 else sx.toInt) →
    y = (if sy.toInt = -32768 then -32767 else sy.toInt) →
    z = (if sz.toInt = -32768 then -32767 else sz.toInt) →
    ∃ t, exec (.setSun sx sy sz dni atc) s = .next t
      ∧ (1056964608 ≤ x * x + y * y + z * z → x * x + y * y + z * z ≤ 1090519040 →
          Delivered s t .dispatch
              (if 1500 < dni.toNat ∨ 4095 < atc.toNat ∨ sx.toInt = -32768 ∨ sy.toInt = -32768 ∨ sz.toInt = -32768
                then .clamped else .done)
          ∧ t.sun.present = true ∧ t.sun.s = ⟨x, y, z⟩
          ∧ t.sun.dni = (if 1500 < dni.toNat then 1500 else dni.toNat)
          ∧ t.sun.atc = (if 4095 < atc.toNat then 4095 else atc.toNat)
          ∧ t.bare = { s with sun := t.sun }.bare)
      ∧ (x * x + y * y + z * z < 1056964608 ∨ 1090519040 < x * x + y * y + z * z →
          Delivered s t .dispatch .held ∧ t.sun = s.sun ∧ t.dPending .sunHeld = true
          ∧ t.bare = { s with devents := t.devents }.bare
          ∧ ∀ e : DEvent, e ≠ .sunHeld → t.dPending e = s.dPending e)

/-- SET_EPOCH (R79): 1..249 is written as 250 and returns CLAMPED; a stopped timer starts with the period, a running
one takes it as the pending period, and 0 stops the timer. No sweep is requested and none is affected. -/
def Obligations.SetEpoch : Prop :=
  ∀ (s : State) (v : BitVec 16) (p : Nat), s.accepts (.setEpoch v) = true →
    p = (if 1 ≤ v.toNat ∧ v.toNat ≤ 249 then 250 else v.toNat) →
    ∃ t, exec (.setEpoch v) s = .next t
      ∧ Delivered s t .dispatch (if 1 ≤ v.toNat ∧ v.toNat ≤ 249 then .clamped else .done)
      ∧ (p = 0 → t.epoch = ⟨false, 0, none, 0⟩)
      ∧ (p ≠ 0 → s.epoch.running = false →
          t.epoch.running = true ∧ t.epoch.period = p ∧ t.epoch.countdown = p
            ∧ t.epoch.pendingPeriod = s.epoch.pendingPeriod)
      ∧ (p ≠ 0 → s.epoch.running = true → t.epoch = { s.epoch with pendingPeriod := some p })
      ∧ t.sweep = s.sweep ∧ t.bare = { s with epoch := t.epoch }.bare

/-- EPOCH_NOW: with no sweep in flight it starts one and returns DONE; with one in flight it is refused with
BUSY and has no effect. The Epoch Timer stands, whether it runs or not. A sweep of an empty table completes at
once. -/
def Obligations.EpochNow : Prop :=
  ∀ s : State, s.accepts .epochNow = true →
    ∃ t, exec .epochNow s = .next t ∧ t.epoch = s.epoch
      ∧ (s.sweep.inFlight = true → Delivered s t .dispatch .busy ∧ t.bare = s.bare)
      ∧ (s.sweep.inFlight = false → Delivered s t .dispatch .done ∧ t.snapshot = some s.sun
          ∧ (s.present ≠ [] → t.sweep = ⟨true, s.present, none, s.sweep.count⟩
              ∧ t.bare = { s with sweep := t.sweep, snapshot := t.snapshot }.bare)
          ∧ (s.present = [] → t.sweep = ⟨false, [], none, (s.sweep.count + 1) % 65536⟩
              ∧ t.dPending .sweepDone = true))

/-- EPOCH_EXPIRY of a running timer: the time left passes, the pending period is loaded and the countdown reloaded,
and a sweep of the present records starts, or EPOCH_OVERRUN is raised where one is in flight. A sweep of an empty
table completes at once, and while the books are right it changes no point. -/
def Obligations.EpochExpiry : Prop :=
  ∀ (s : State) (p : Nat), s.epoch.running = true → p = s.epoch.pendingPeriod.getD s.epoch.period →
    ∃ t, exec .epochExpiry s = .next t
      ∧ t.ms = s.ms + BitVec.ofNat 32 s.epoch.countdown ∧ t.epoch = ⟨true, p, none, p⟩
      ∧ (s.sweep.inFlight = true → t.dPending .epochOverrun = true ∧ t.sweep = s.sweep ∧ t.snapshot = s.snapshot
          ∧ t.hels = s.hels ∧ t.zones = s.zones ∧ t.points = s.points)
      ∧ (s.sweep.inFlight = false → s.present ≠ [] →
          t.sweep = ⟨true, s.present, none, s.sweep.count⟩ ∧ t.snapshot = some s.sun
          ∧ t.hels = s.hels ∧ t.zones = s.zones ∧ t.points = s.points ∧ t.devents = s.devents)
      ∧ (s.sweep.inFlight = false → s.present = [] →
          t.sweep = ⟨false, [], none, (s.sweep.count + 1) % 65536⟩ ∧ t.snapshot = some s.sun
          ∧ t.dPending .sweepDone = true ∧ (s.booksOk → t.points = s.points))
      ∧ t.sun = s.sun ∧ t.link = s.link ∧ t.scu = s.scu
      ∧ t.dpt = s.dpt ∧ t.ppt = s.ppt ∧ t.dmask = s.dmask ∧ t.pmask = s.pmask ∧ t.form = s.form

/-- The sequence register (R94): each draw steps it to twice its value modulo 256, combined with 29 where the value
was 128 or more; from a value other than 0 it never reaches 0, passes every value of 1..255 and is back after 255
steps. SET_STAGGER writes STEP, DMAX and the seed, 0 as 1 with CLAMPED, and leaves running timers. A start of the
generator loads segment k with k times STEP plus its draw modulo DMAX + 1, and steps the register eight times. -/
def Obligations.Stagger : Prop :=
  ((∀ r : BitVec 8, (rsgNext r).toNat =
        if 128 ≤ r.toNat then (2 * r.toNat % 256) ^^^ 29 else 2 * r.toNat % 256)
      ∧ (∀ r : BitVec 8, r ≠ 0 → rsgNext r ≠ 0)
      ∧ (∀ r : BitVec 8, r ≠ 0 → rsgNext^[255] r = r)
      ∧ (∀ r q : BitVec 8, r ≠ 0 → q ≠ 0 → ∃ n < 255, rsgNext^[n] r = q)
      ∧ (∀ (s : State) (k : Nat), (s.draw k).rsg.reg = rsgNext s.rsg.reg))
  ∧ ((∀ (s : State) (a b c : Byte), s.accepts (.setStagger a b c) = true →
      ∃ t, exec (.setStagger a b c) s = .next t ∧ Delivered s t .dispatch (if c = 0 then .clamped else .done)
        ∧ t.rsg = ⟨a.toNat, b.toNat, if c = 0 then 1 else c, s.rsg.timers⟩ ∧ t.bare = { s with rsg := t.rsg }.bare)
    ∧ (∀ s : State, s.startRsg.rsg.reg = rsgNext^[8] s.rsg.reg
        ∧ ∀ k < 8, ∀ d, d = k * s.rsg.stepMs + (rsgNext^[k] s.rsg.reg).toNat % (s.rsg.dmax + 1) →
            s.startRsg.timer k = if d = 0 then none else some d))

/-- RELEASE_TIMER_EXPIRY: the time left passes, the timer stops, and the release starts a pass of an IDLE or WAITING
segment, becomes the pending release of a PASSING one with PASS_OVERRUN, and is discarded otherwise. -/
def Obligations.ReleaseTimerExpiry : Prop :=
  ∀ (s : State) (k : Fin 8) (d : Nat) (g : Seg), s.timer k = some d → g = s.seg k →
    ∃ t, exec (.releaseTimerExpiry k) s = .next t ∧ t.ms = s.ms + BitVec.ofNat 32 d ∧ t.timer k = none
      ∧ (∀ j : Fin 8, j ≠ k → t.timer j = (s.timer j).map (· - d))
      ∧ (g.state = .idle ∨ g.state = .waiting →
          (t.seg k).state = .passing ∧ (t.seg k).passPos = none ∧ (t.seg k).answered = 0 ∧ (t.seg k).missed = 0
          ∧ (t.seg k).crcErrors = 0 ∧ (t.seg k).turn = true ∧ t.devents = s.devents)
      ∧ (g.state = .passing → (t.seg k).state = .passing ∧ (t.seg k).pendingRelease = true
          ∧ t.dPending .passOverrun = true)
      ∧ (g.state = .locked ∨ g.state = .disabled → (t.seg k).state = g.state
          ∧ (t.seg k).pendingRelease = g.pendingRelease ∧ t.devents = s.devents)
      ∧ (t.seg k).urgent = g.urgent ∧ (t.seg k).frame = g.frame.map (Frame.elapse d)
      ∧ (∀ j : Fin 8, j ≠ k → (t.seg j).state = (s.seg j).state)
      ∧ t.hels = s.hels ∧ t.zones = s.zones ∧ t.points = s.points ∧ t.sweep = s.sweep ∧ t.scu = s.scu
      ∧ t.link = s.link ∧ t.pevents = s.pevents ∧ t.dpt = s.dpt ∧ t.ppt = s.ppt

/-- SWEEP_VISIT: with a sweep in flight, the path free and no solve pending, the lowest index left is visited. Its
record takes a tag of its current target, its sweep mark and P_new; P_clear, P_valid and its place stand; no other
record changes. Toward STOW, or without a sun in the snapshot, the normal is the stow normal; GEOMETRY and NO_SOLUTION
hold the normal; otherwise it is the solve's. The contribution toward the budget point is 0 and invalid where there is
none, no sun, or GEOMETRY; 0 and valid at NO_SOLUTION; otherwise the solve's. The flags show the two computations. -/
def Obligations.SweepVisit : Prop :=
  ∀ (s : State) (i : Nat) (rest : List Nat) (h : Hel) (budget : Option Nat) (normal flux : Solved),
    s.sweep.inFlight = true → s.solveOut = none → s.nextSolve = none → s.sweep.remaining = i :: rest → h = s.hel i →
    budget = (if h.state = .onTarget then s.aimedPoint h else h.assignment) →
    normal = solveToward s.snapshot h (s.targetPos (s.currentTarget h)) →
    flux = solveToward s.snapshot h (budget.map fun b => (s.point b).pos) →
    ∃ t, exec .sweepVisit s = .next t
      ∧ t.sweep = { s.sweep with remaining := rest, lastVisited := some i }
      ∧ (t.hel i).tag = ⟨s.currentTarget h, true⟩ ∧ (t.hel i).mark = true
      ∧ (s.currentTarget h = .stow ∨ (∀ u, s.snapshot = some u → u.present = false) →
          (t.hel i).nCmd = ⟨0, 0, 32767⟩)
      ∧ (normal = .geometry ∨ normal = .noSolution → (t.hel i).nCmd = h.nCmd)
      ∧ (∀ v p, normal = .found v p → (t.hel i).nCmd = v)
      ∧ (budget = none ∨ (∀ u, s.snapshot = some u → u.present = false) ∨ flux = .geometry →
          (t.hel i).pNew = 0 ∧ (t.hel i).pNewValid = false)
      ∧ (flux = .noSolution → (t.hel i).pNew = 0 ∧ (t.hel i).pNewValid = true)
      ∧ (∀ v p, flux = .found v p → (t.hel i).pNew = p ∧ (t.hel i).pNewValid = true)
      ∧ ((t.hel i).geometry = true ↔ normal = .geometry ∨ flux = .geometry)
      ∧ ((t.hel i).noSolution = true ↔ normal = .noSolution ∨ flux = .noSolution)
      ∧ { t.hel i with nCmd := h.nCmd, tag := h.tag, mark := h.mark, pNew := h.pNew, pNewValid := h.pNewValid,
                       geometry := h.geometry, noSolution := h.noSolution } = h
      ∧ (∀ j, j ≠ i → t.hel j = s.hel j)
      ∧ { t with hels := s.hels, sweep := s.sweep } = s

/-- SWEEP_COMPLETE: the sweep ends and its count rises; every present record that was visited takes P_new as its
P_clear with its validity, every other loses P_valid, and no mark is left; SWEEP_DONE is raised; the stagger
generator draws and loads the eight release timers; the heliostats of LOCKED and DISABLED segments take a miss.
Where that miss accrual is taken first, every zone ends within its limit or with nothing aimed at it. -/
def Obligations.SweepComplete : Prop :=
  ∀ (s : State) (first : Byte), s.sweep.inFlight = true → s.sweep.remaining = [] → s.tablesOk = true →
    (∀ i ∈ s.present, (s.hel i).segment < 8) →
    ∃ t, exec (.sweepComplete first) s = .next t
      ∧ t.sweep = { s.sweep with inFlight := false, count := (s.sweep.count + 1) % 65536 }
      ∧ t.dPending .sweepDone = true
      ∧ (∀ i ∈ s.present, (t.hel i).mark = false
          ∧ (t.hel i).pClear = (if (s.hel i).mark then (s.hel i).pNew else (s.hel i).pClear)
          ∧ (t.hel i).pValid = ((s.hel i).mark && (s.hel i).pNewValid)
          ∧ (t.hel i).miss =
              if (s.seg (s.hel i).segment).state = .locked ∨ (s.seg (s.hel i).segment).state = .disabled then
                min 15 ((s.hel i).miss + 1)
              else (s.hel i).miss)
      ∧ (∀ k < 8, ∀ d, d = k * s.rsg.stepMs + (rsgNext^[k] s.rsg.reg).toNat % (s.rsg.dmax + 1) →
          t.timer k = if d = 0 then none else some d)
      ∧ t.rsg.reg = rsgNext^[8] s.rsg.reg
      ∧ (first = 0xFF → t.zonesSafe)
      ∧ t.ms = s.ms ∧ t.sun = s.sun ∧ t.snapshot = s.snapshot ∧ t.epoch = s.epoch ∧ t.link = s.link ∧ t.scu = s.scu
      ∧ t.dpt = s.dpt ∧ t.ppt = s.ppt ∧ t.dmask = s.dmask ∧ t.pmask = s.pmask ∧ t.form = s.form

/-- SOLVE with the path free: the first segment after the last one served whose request is pending is taken, and the
record is computed toward its current target unless it is absent: tag, normal and flags alone change. That the write
falls in the step that takes the request, and that the answer falls in it too but in the row's second form, is the
model's choice (log 16). An answer fixes the frame where tag and current target agree (TRACK with the command normal,
or STOW), empties it where the record is absent, re-addressed or EXCLUDED, and asks again where they differ. A segment
that no longer waits for the answer that is out discards it. -/
def Obligations.Solve : Prop :=
  (∀ (s : State) (c : Instr) (j k i : Nat) (f : Frame) (h : Hel) (r : Solved), c = .solve ∨ c = .solveBegun →
      s.solveOut = none → j < 8 →
      k = (s.lastServed + 1 + j) % 8 → s.solving k = true → (∀ l < j, s.solving ((s.lastServed + 1 + l) % 8) = false) →
      (s.seg k).frame = some f → f.heliostat = some i → h = s.hel i →
      r = solveToward s.snapshot h (s.targetPos (s.currentTarget h)) →
      ∃ t, exec c s = .next t ∧ t.lastServed = k
        ∧ (h.state = .absent → t.hels = s.hels)
        ∧ (h.state ≠ .absent → (t.hel i).tag = ⟨s.currentTarget h, true⟩
            ∧ (t.hel i).nCmd = (match r with | .unlit => ⟨0, 0, 32767⟩ | .found v _ => v | _ => h.nCmd)
            ∧ (t.hel i).geometry = (h.geometry || r == .geometry)
            ∧ (t.hel i).noSolution = (h.noSolution || r == .noSolution)
            ∧ { t.hel i with seq := h.seq, tag := h.tag, nCmd := h.nCmd, geometry := h.geometry,
                             noSolution := h.noSolution } = h)
        ∧ (c = .solveBegun → t.solveOut = some ⟨k, h.state == .absent⟩ ∧ (t.hel i).seq = h.seq
            ∧ (t.seg k).frame = some { f with taken := true })
        ∧ (c = .solve → t.solveOut = none
            ∧ (h.state = .absent ∨ h.state = .excluded ∨ h.segment ≠ k ∨ h.drop ≠ f.askedDrop →
                (t.seg k).frame = none ∧ (t.hel i).seq = h.seq)
            ∧ (h.state ≠ .absent → h.state ≠ .excluded → h.segment = k → h.drop = f.askedDrop →
                (t.hel i).seq = (h.seq + 1) % 16
                ∧ ∃ g, (t.seg k).frame = some g
                  ∧ s.FixedFrame k i f.origin { h with nCmd := (t.hel i).nCmd } g))
        ∧ { t.seg k with frame := none, activeUs := none } = { s.seg k with frame := none, activeUs := none }
        ∧ (∀ n, n ≠ i → t.hel n = s.hel n) ∧ (∀ n, n ≠ k → t.seg n = s.seg n)
        ∧ { t with hels := s.hels, segs := s.segs, lastServed := s.lastServed, solveOut := s.solveOut } = s)
  ∧ (∀ (s : State) (o : SolveOut), s.solveOut = some o → exec .solveBegun s = .next s
      ∧ ∃ t, exec .solve s = .next t ∧ t.solveOut = none ∧ t.lastServed = s.lastServed
        ∧ ((∀ f, (s.seg o.segment).frame = some f → f.phase ≠ .solving ∨ f.taken = false) →
            t = { s with solveOut := none })
        ∧ (∀ f i h, (s.seg o.segment).frame = some f → f.phase = .solving → f.taken = true → f.heliostat = some i →
            h = s.hel i →
            (o.absent = true ∨ h.state = .absent ∨ h.state = .excluded ∨ h.segment ≠ o.segment ∨ h.drop ≠ f.askedDrop →
              (t.seg o.segment).frame = none ∧ t.hels = s.hels)
            ∧ (o.absent = false → h.state ≠ .absent → h.state ≠ .excluded → h.segment = o.segment →
                h.drop = f.askedDrop →
                (h.tag = ⟨s.currentTarget h, true⟩ → t.hel i = { h with seq := (h.seq + 1) % 16 }
                  ∧ (∀ n, n ≠ i → t.hel n = s.hel n)
                  ∧ ∃ g, (t.seg o.segment).frame = some g ∧ s.FixedFrame o.segment i f.origin h g)
                ∧ (h.tag ≠ ⟨s.currentTarget h, true⟩ → t.hels = s.hels
                  ∧ (t.seg o.segment).frame = some { f with taken := false })))
        ∧ (∀ n, n ≠ o.segment → t.seg n = s.seg n)
        ∧ { t with hels := s.hels, segs := s.segs, solveOut := s.solveOut } = s)

/-- The integer square root is the greatest integer whose square does not exceed its argument. A computation toward a
point with a sun in the snapshot ends as stages 1 to 4 give it: slant range, target direction, bisector, cosine
factor, normal, attenuation and the five steps of the contribution, each rounded as its rule says. A computation
toward STOW or without a sun runs no stage. The current target of a present record is STOW under stow; otherwise an
ON_TARGET heliostat's is its point, or that point's alternate; a QUEUED, STANDBY or assigned OFFLINE one's is its zone's
standby point where that is named and valid, or else STOW; every other one's is STOW. -/
def Obligations.SquareRoot : Prop :=
  (∀ n : Nat, isqrt n * isqrt n ≤ n ∧ n < (isqrt n + 1) * (isqrt n + 1))
  ∧ (∀ (u : Sun) (h : Hel) (a : Vec3), u.present = true → AimSolution u h a (solveToward (some u) h (some a)))
  ∧ (∀ (snap : Option Sun) (h : Hel) (aim : Option Vec3), aim = none ∨ (∀ u, snap = some u → u.present = false) →
      solveToward snap h aim = .unlit)
  ∧ (∀ (s : State) (h : Hel), h.state ≠ .absent →
      (s.pau.asserted = true ∨ s.pau.stowCommand = true → s.currentTarget h = .stow)
      ∧ (s.pau.asserted = false → s.pau.stowCommand = false →
          (∀ p, h.state = .onTarget → h.assignment = some p →
            (h.onAlternate = false → s.currentTarget h = .point p)
            ∧ (∀ q, h.onAlternate = true → (s.point p).alternate = some q → s.currentTarget h = .point q))
          ∧ (∀ p, h.state = .queued ∨ h.state = .standby ∨ h.state = .offline → h.assignment = some p →
            (∀ q, (s.zone (s.point p).zone).standby = some q → (s.point q).valid = true → s.currentTarget h = .point q)
            ∧ ((∀ q, (s.zone (s.point p).zone).standby = some q → (s.point q).valid = false) →
                s.currentTarget h = .stow))
          ∧ (h.state = .stowed ∨ h.state = .excluded ∨ h.state = .faulted
              ∨ (h.state = .offline ∧ h.assignment = none) → s.currentTarget h = .stow)))

/-! ### The field links -/

/-- SET_LINK with a segment and a rate that exist writes the link's settings, limited, and enables or disables the
segment: an enabled one is WAITING or IDLE by its release timer and owes a broadcast while stow is in effect; a
disabled one loses its dialogue (a frame being sent stops at the end of its byte), pass and lock, and its maintenance
turn (with no pass in progress the model's choice, log 23). Where the enable flag stays as it stands, dialogue, pass, lock, turn and owed broadcast stand. Urgent queue,
ring, polarity and counters are kept. The model's readings: the driver is off at once while that byte is sent, and the
stopped transmission's record stands (log 30); PTOL is read unsigned, so 32768 and above are limited to 32767 (log
13). -/
def Obligations.SetLink : Prop :=
  ∀ (s : State) (k e b tm q ml dl : Byte) (pt : BitVec 16) (r : Rate) (g : Seg),
    s.accepts (.setLink k e b tm q ml dl pt) = true → k.toNat ≤ 7 → rateOf b = some r → g = s.seg k.toNat →
    ∃ t, exec (.setLink k e b tm q ml dl pt) s = .next t
      ∧ Delivered s t .dispatch
          (if tm = 0 ∨ q = 0 ∨ ml = 0 ∨ 15 < ml.toNat ∨ dl = 0 ∨ 15 < dl.toNat ∨ pt.toNat < 30000 ∨ 32767 < pt.toNat
            then .clamped else .done)
      ∧ t.link = ⟨max 1 (min 15 ml.toNat), max 1 (min 15 dl.toNat), max 30000 (min 32767 pt.toNat)⟩
      ∧ (t.seg k.toNat).confRate = r ∧ (t.seg k.toNat).rate = r ∧ (t.seg k.toNat).errorRun = 0
      ∧ (t.seg k.toNat).timeout = max 1 tm.toNat ∧ (t.seg k.toNat).quiet = max 1 q.toNat
      ∧ (t.seg k.toNat).state =
          (if e = 0 then .disabled
            else if g.state = .disabled then (if (s.timer k.toNat).isSome then .waiting else .idle) else g.state)
      ∧ (e ≠ 0 → g.state = .disabled → (t.seg k.toNat).owed = s.stowInEffect
          ∧ (t.seg k.toNat).frame = g.frame ∧ (t.seg k.toNat).passPos = g.passPos
          ∧ (t.seg k.toNat).pendingRelease = g.pendingRelease ∧ (t.seg k.toNat).turn = g.turn
          ∧ (t.seg k.toNat).quietLeft = g.quietLeft)
      ∧ ((e = 0 ↔ g.state = .disabled) →
          { t.seg k.toNat with
              confRate := g.confRate, rate := g.rate, errorRun := g.errorRun, timeout := g.timeout, quiet := g.quiet } = g)
      ∧ (e = 0 → g.state ≠ .disabled →
          (t.seg k.toNat).frame = none ∧ (t.seg k.toNat).passPos = none ∧ (t.seg k.toNat).pendingRelease = false
          ∧ (t.seg k.toNat).turn = false ∧ (t.seg k.toNat).quietLeft = none ∧ (t.seg k.toNat).owed = false
          ∧ SendingStopped g (t.seg k.toNat))
      ∧ (t.seg k.toNat).urgent = g.urgent ∧ (t.seg k.toNat).slots = g.slots ∧ (t.seg k.toNat).head = g.head
      ∧ (t.seg k.toNat).count = g.count ∧ (t.seg k.toNat).inverted = g.inverted
      ∧ (t.seg k.toNat).invertedRun = g.invertedRun ∧ (t.seg k.toNat).answered = g.answered
      ∧ (t.seg k.toNat).missed = g.missed ∧ (t.seg k.toNat).crcErrors = g.crcErrors
      ∧ (∀ j, j ≠ k.toNat → t.seg j = s.seg j) ∧ t.bare = { s with segs := t.segs, link := t.link }.bare

/-- RESTART_SEGMENT returns a segment's link to a known condition: no dialogue, pass, lock, urgent entry or
maintenance record, the latch NORMAL, the configured rate and counters 0, and seq, miss and deviation counts 0 in
its present heliostats; a frame being sent stops at the end of its byte; departures and stranded amounts stand. Every record in the ring returns to the dispatch master
CANCELLED, and the head stands after the last of them. Under stow an enabled segment owes a broadcast. That the driver
is off at once while the byte under way is sent, and that the stopped transmission's record stands, is the model's
reading (log 30). -/
def Obligations.RestartSegment : Prop :=
  ∀ (s : State) (b : Byte) (k : Nat) (g : Seg), s.accepts (.restartSegment b) = true → b.toNat ≤ 7 →
    k = b.toNat → g = s.seg k →
    ∃ t, exec (.restartSegment b) s = .next t ∧ Delivered s t .dispatch .done
      ∧ (t.seg k).frame = none ∧ SendingStopped g (t.seg k)
      ∧ (t.seg k).passPos = none ∧ (t.seg k).pendingRelease = false
      ∧ (t.seg k).turn = false ∧ (t.seg k).quietLeft = none ∧ (t.seg k).urgent = [] ∧ (t.seg k).count = 0
      ∧ (t.seg k).inverted = false ∧ (t.seg k).invertedRun = 0 ∧ (t.seg k).rate = g.confRate
      ∧ (t.seg k).errorRun = 0 ∧ (t.seg k).answered = 0 ∧ (t.seg k).missed = 0 ∧ (t.seg k).crcErrors = 0
      ∧ (t.seg k).state =
          (if g.state = .disabled then .disabled else if (s.timer k).isSome then .waiting else .idle)
      ∧ (t.seg k).confRate = g.confRate ∧ (t.seg k).timeout = g.timeout ∧ (t.seg k).quiet = g.quiet
      ∧ (0 < g.count → t.dPending .maintReturned = true)
      ∧ (t.seg k).owed = (g.owed || (g.state != .disabled && s.stowInEffect))
      ∧ (g.head ≤ 15 → g.count ≤ 16 → (t.seg k).head = (g.head + g.count) % 16
          ∧ (∀ m < g.count, (t.seg k).slot ((g.head + m) % 16)
              = { g.slot ((g.head + m) % 16) with owner := .dispatch, result := .cancelled, reply := none })
          ∧ (∀ n, (∀ m < g.count, n ≠ (g.head + m) % 16) → (t.seg k).slot n = g.slot n))
      ∧ (∀ i, t.hel i =
          if (s.hel i).state ≠ .absent ∧ (s.hel i).segment = k then { s.hel i with seq := 0, miss := 0, dev := 0 }
          else s.hel i)
      ∧ (∀ j, j ≠ k → t.seg j = s.seg j)
      ∧ t.bare = { s with segs := t.segs, hels := t.hels, devents := t.devents }.bare

/-- POST_MAINT of one of the four actions to a ring with room writes the record into the tail slot, owned by the
part, and nothing else; a full ring refuses it with FULL, and operands out of range with RANGE. That the six operand
bytes are kept as posted whatever the action is the model's choice (log 10). -/
def Obligations.PostMaint : Prop :=
  ∀ (s : State) (b : Byte) (i : BitVec 16) (a : Byte) (o : BitVec 48) (k : Nat),
    s.accepts (.postMaint b i a o) = true → k = b.toNat →
    ∃ t, exec (.postMaint b i a o) s = .next t
      ∧ (7 < k ∨ 1999 < i.toNat ∨ a.toNat < 0x11 ∨ 0x14 < a.toNat →
          Delivered s t .dispatch .range ∧ t.bare = s.bare)
      ∧ (k ≤ 7 → i.toNat ≤ 1999 → 0x11 ≤ a.toNat → a.toNat ≤ 0x14 → 16 ≤ (s.seg k).count →
          Delivered s t .dispatch .full ∧ t.bare = s.bare)
      ∧ (k ≤ 7 → i.toNat ≤ 1999 → 0x11 ≤ a.toNat → a.toNat ≤ 0x14 → (s.seg k).count < 16 →
          Delivered s t .dispatch .done ∧ (t.seg k).count = (s.seg k).count + 1 ∧ (t.seg k).head = (s.seg k).head
          ∧ (∃ act, act.kind.code = a
              ∧ (t.seg k).slot (((s.seg k).head + (s.seg k).count) % 16)
                  = ⟨.part, i.toNat, act, bytes48 o, .none, none⟩)
          ∧ (∀ n, n ≠ ((s.seg k).head + (s.seg k).count) % 16 → (t.seg k).slot n = (s.seg k).slot n)
          ∧ { t.seg k with slots := [], count := 0 } = { s.seg k with slots := [], count := 0 }
          ∧ (∀ j, j ≠ k → t.seg j = s.seg j) ∧ t.bare = { s with segs := t.segs }.bare)

/-- NEXT_ITEM_TAKEN at a frame boundary, in the order of service: an owed broadcast goes first; then the urgent
queue's first heliostat, its frame built for its current target; then the head maintenance record, where the segment
is not PASSING or has its turn: returned REFUSED, or its frame fixed; then, while PASSING, the item of the lowest drop
above the pass position. With none left the pass ends, or starts anew where a release is pending. That an item without
a frame, or a record returned REFUSED, ends the step with the boundary standing, the next choice being another row's, is
the model's choice (log 22). -/
def Obligations.NextItemTaken : Prop :=
  ∀ (s : State) (k : Fin 8) (g : Seg), g = s.seg k → g.frame = none →
    g.state = .idle ∨ g.state = .waiting ∨ g.state = .passing →
    ∃ t, exec (.nextItemTaken k) s = .next t
      ∧ (g.owed = true → (t.seg k).owed = false ∧ t.hels = s.hels
          ∧ ∃ f, (t.seg k).frame = some f ∧ f.origin = .broadcast ∧ f.phase = .sending ∧ f.drop = 255
              ∧ f.kind = some .stow ∧ f.seq = 0 ∧ f.heliostat = none ∧ f.rate = some g.rate)
      ∧ (∀ i rest, g.owed = false → g.urgent = i :: rest → (t.seg k).urgent = rest ∧ FrameBuilt s t k i .urgent
          ∧ t.devents = s.devents)
      ∧ (∀ (r : Slot) (h : Hel) (refused : Bool), g.owed = false → g.urgent = [] → 0 < g.count →
          g.state ≠ .passing ∨ g.turn = true → r = g.slot g.head → h = s.hel r.heliostat →
          (refused = true ↔ h.state = .absent ∨ h.segment ≠ k
            ∨ (r.action = .move ∧ (h.state ≠ .excluded ∨ s.stowInEffect = true ∨ s.pau.defocus = true))) →
          (refused = true → RecordReturned g (t.seg k) .refused none ∧ (t.seg k).frame = none ∧ t.hels = s.hels
            ∧ (t.seg k).turn = g.turn ∧ t.dPending .maintReturned = true)
          ∧ (refused = false → (t.seg k).turn = false ∧ (t.seg k).slots = g.slots ∧ (t.seg k).count = g.count
            ∧ t.hel r.heliostat = { h with seq := (h.seq + 1) % 16 } ∧ (∀ j, j ≠ r.heliostat → t.hel j = s.hel j)
            ∧ ∃ f, (t.seg k).frame = some f ∧ f.origin = .maint ∧ f.phase = .sending
                ∧ f.heliostat = some r.heliostat ∧ f.drop = h.drop ∧ f.kind = some r.action.kind
                ∧ f.seq = (h.seq + 1) % 16 ∧ f.target = none ∧ f.rate = some g.rate
                ∧ (f.normal.isSome ↔ r.action = .move ∧ r.ops.length = 6)))
      ∧ (s.tablesOk = true → g.owed = false → g.urgent = [] → g.count = 0 ∨ g.turn = false → g.state = .passing →
          (∀ i h, h = s.hel i → h.segment = k → h.state ≠ .absent → h.state ≠ .excluded →
            (∀ p, g.passPos = some p → p < h.drop) →
            (∀ j, j ≠ i → (s.hel j).segment = k → (s.hel j).state ≠ .absent → (s.hel j).state ≠ .excluded →
              (∀ p, g.passPos = some p → p < (s.hel j).drop) → h.drop < (s.hel j).drop) →
            (t.seg k).passPos = some h.drop ∧ (t.seg k).turn = true ∧ FrameBuilt s t k i .pass)
          ∧ ((∀ i, (s.hel i).segment = k → (s.hel i).state ≠ .absent → (s.hel i).state ≠ .excluded →
                ∃ p, g.passPos = some p ∧ (s.hel i).drop ≤ p) →
              t.hels = s.hels ∧ (t.seg k).passPos = none ∧ (t.seg k).frame = none ∧ (t.seg k).pendingRelease = false
              ∧ (g.pendingRelease = false →
                  (t.seg k).state = (if (s.timer k).isSome then .waiting else .idle) ∧ (t.seg k).turn = g.turn)
              ∧ (g.pendingRelease = true → (t.seg k).state = .passing ∧ (t.seg k).turn = true
                  ∧ (t.seg k).answered = 0 ∧ (t.seg k).missed = 0 ∧ (t.seg k).crcErrors = 0)))
      ∧ (g.owed = false → g.urgent = [] → g.count = 0 → g.state ≠ .passing → t = s)
      ∧ (∀ j, j ≠ k.val → t.seg j = s.seg j)
      ∧ { t with hels := s.hels, segs := s.segs, devents := s.devents } = s

/-- In SENDING the driver is on and the frame's bytes are sent, complemented while the latch is INVERTED, each as a start
bit, eight data bits least significant first and a stop bit, at the rate the frame was fixed with: 13 bytes in 130, 520
or 2080 µs. FRAME_SENT, the end of the last stop bit, turns the driver off, ends a broadcast's dialogue and starts the
wait of any other frame with the segment's reply timeout; RECEPTION_BEGINS takes a first marker byte, or its complement,
that starts before the remaining time has run out, and holds the remaining time at what it was at the start bit; any
other byte is discarded. That the row carries the microseconds spent hunting, and FRAME_SENT none, is the model's choice
(logs 9 and 19). -/
def Obligations.SendAndWait : Prop :=
  ∀ (s : State) (k : Fin 8) (f : Frame), (s.seg k).frame = some f →
    (f.phase = .sending → (s.seg k).driverEnable = true
      ∧ (∀ (kind : Kind) (covered : List Byte), f.kind = some kind →
          covered = BitVec.ofNat 8 f.drop :: kind.code :: BitVec.ofNat 8 f.seq :: f.payload →
          f.bytes = 0x7E :: 0xA5 :: covered ++ bytes16 (crc covered))
      ∧ (s.seg k).txBits = f.bytes.flatMap (fun b =>
          .start :: ((List.range 8).map fun j => .data ((if (s.seg k).inverted then ~~~b else b).getLsbD j)) ++ [.stop])
      ∧ (∀ (r : Rate) (us bit : Nat), f.rate = some r → bit = (match r with | .fast => 1 | .medium => 4 | .slow => 16) →
          (s.seg k).txAt us = (s.seg k).txBits[us / bit]?
          ∧ (f.payload.length = 6 → (s.seg k).txBytes.length = 13 ∧ ((s.seg k).txAt us = none ↔ 130 * bit ≤ us)))
      ∧ ∃ t, exec (.frameSent k) s = .next t ∧ (t.seg k).driverEnable = false ∧ (t.seg k).txBits = []
        ∧ (t.seg k).frame = (if f.origin = .broadcast then none
            else some { f with phase := .awaiting, remaining := (s.seg k).timeout * 100, fresh := true,
                               receptions := 0, receiving := false, corruptSeen := false })
        ∧ (t.seg k).activeUs = (if s.rxActive k = true then some (-1000) else none)
        ∧ { t.seg k with frame := none, activeUs := none } = { s.seg k with frame := none, activeUs := none }
        ∧ (∀ j, j ≠ k.val → t.seg j = s.seg j) ∧ { t with segs := s.segs } = s)
    ∧ (∀ (b : Byte) (us : Nat), f.phase = .awaiting → f.receiving = false →
      ∃ t, exec (.receptionBegins k b us) s = .next t
        ∧ (b = 0x7E ∨ b = 0x81 → us < f.remaining →
            (t.seg k).frame = some { f with receiving := true, remaining := f.remaining - us }
            ∧ { t.seg k with frame := none } = { s.seg k with frame := none }
            ∧ (∀ j, j ≠ k.val → t.seg j = s.seg j) ∧ { t with segs := s.segs } = s)
        ∧ ((b ≠ 0x7E ∧ b ≠ 0x81) ∨ f.remaining ≤ us → t = s))

/-- RECEPTION_COMPLETE with a good reply ends the dialogue and the error run. Unless the frame is orphaned the record
takes normal, motion and fault code with its miss count 0, and the reply counts as answered. A reply with fault code 0
to an off-receiver target's frame acknowledges a departure, and releases an OFFLINE heliostat's stranded amount, not a
FAULTED one's. A fault report then takes the heliostat to FAULTED, an ON_TARGET one stranding its flux. Otherwise an
OFFLINE heliostat without a stranded amount is QUEUED or STOWED, and an ON_TARGET one whose normal deviates counts a
deviation, and at the limit departs to STANDBY. A maintenance record is returned DONE, or NO_REPLY for an orphaned
frame (that the error run ends there too is the model's reading, log 12). -/
def Obligations.GoodReply : Prop :=
  ∀ (s : State) (k : Fin 8) (bytes body : List Byte) (f : Frame) (r : ReplyFields),
    (s.seg k).frame = some f → f.phase = .awaiting → f.receiving = true →
    bytes.map (s.seg k).receive = 0x7E :: 0xA5 :: body → replyFields body = some r →
    r.sound = true → r.answers f = true →
    ∃ t, exec (.receptionComplete k bytes) s = .next t
      ∧ (t.seg k).frame = none ∧ (t.seg k).errorRun = 0 ∧ (t.seg k).invertedRun = 0
      ∧ (t.seg k).missed = (s.seg k).missed
      ∧ (f.origin ≠ .maint → (t.seg k).slots = (s.seg k).slots ∧ (t.seg k).count = (s.seg k).count)
      ∧ (f.orphaned = true → t.hels = s.hels ∧ (t.seg k).answered = (s.seg k).answered
          ∧ (f.origin = .maint → RecordReturned (s.seg k) (t.seg k) .noReply none ∧ t.dPending .maintReturned = true))
      ∧ (∀ (i : Nat) (h : Hel) (faulty acked : Bool) (m : Motion), f.orphaned = false → f.heliostat = some i →
          h = s.hel i → r.motion = some m → (faulty = true ↔ r.fault ≠ 0 ∨ m = .halted) →
          (acked = true ↔ h.departing = true ∧ r.fault = 0
            ∧ (f.target = some .stow ∨ ∃ n, f.target = some (.point n) ∧ 96 ≤ n)) →
          (t.seg k).answered = min 65535 ((s.seg k).answered + 1)
          ∧ (f.origin = .maint → t.dPending .maintReturned = true
              ∧ RecordReturned (s.seg k) (t.seg k) .done
                  (f.kind.map fun q => ⟨q, m, r.fault.toNat, components r.x r.y r.z⟩))
          ∧ (t.hel i).nRep = some (components r.x r.y r.z) ∧ (t.hel i).motion = m
          ∧ (t.hel i).fault = r.fault.toNat ∧ (t.hel i).miss = 0 ∧ (t.hel i).seq = h.seq
          ∧ (h.state ≠ .onTarget → (t.hel i).departing = (h.departing && !acked)
              ∧ (acked = true → (t.hel i).departureZone = none)
              ∧ (∀ z, (t.zone z).pendingDepartures = (s.zone z).pendingDepartures -
                  if acked = true ∧ h.departureZone = some z then 1 else 0))
          ∧ (h.state = .offline → acked = true → (t.hel i).stranded = none
              ∧ ∀ st, h.stranded = some st → (t.zone st.zone).stranded = (s.zone st.zone).stranded - st.amount)
          ∧ (h.state = .faulted → (t.hel i).stranded = h.stranded)
          ∧ (h.state ≠ .onTarget → h.state ≠ .offline ∨ acked = false →
              ∀ z, (t.zone z).stranded = (s.zone z).stranded)
          ∧ (faulty = true → h.state ≠ .absent → h.state ≠ .excluded → h.state ≠ .faulted →
              (t.hel i).state = .faulted ∧ t.dPending .heliostatFault = true ∧ t.pPending .heliostatFault = true)
          ∧ (faulty = true → h.state = .queued →
              (t.zone (s.assignedZone h)).queue = (s.zone (s.assignedZone h)).queue.erase i)
          ∧ (faulty = true → h.state = .onTarget → (t.hel i).departing = true
              ∧ (t.hel i).stranded = some ⟨s.joinZone h, s.pEff h⟩
              ∧ (t.zone (s.joinZone h)).stranded = (s.zone (s.joinZone h)).stranded + s.pEff h)
          ∧ (faulty = false → h.state = .offline → h.stranded = none ∨ acked = true →
              if h.assignment.isSome ∧ s.stowInEffect = false ∧ h.trackingError = false then
                (t.hel i).state = .queued
                  ∧ (t.zone (s.assignedZone h)).queue = (s.zone (s.assignedZone h)).queue ++ [i]
              else (t.hel i).state = .stowed)
          ∧ (faulty = false → h.state = .offline → h.stranded ≠ none → acked = false →
              (t.hel i).state = .offline ∧ (t.hel i).stranded = h.stranded)
          ∧ (∀ (n v : Vec3) (d : Nat) (off : Bool), faulty = false → h.state = .onTarget → f.normal = some n →
              v = components r.x r.y r.z → d = min 15 (h.dev + 1) →
              (off = true ↔ (n.x * v.x + n.y * v.y + n.z * v.z) / 32768 < s.link.ptol) →
              (off = false → (t.hel i).state = .onTarget ∧ (t.hel i).dev = h.dev)
              ∧ (off = true → d < s.link.devLimit → (t.hel i).state = .onTarget ∧ (t.hel i).dev = d)
              ∧ (off = true → s.link.devLimit ≤ d → (t.hel i).state = .standby ∧ (t.hel i).dev = 0
                  ∧ (t.hel i).trackingError = true ∧ (t.hel i).departing = true
                  ∧ (t.hel i).departureZone = some (s.joinZone h) ∧ i ∈ (t.seg h.segment).urgent
                  ∧ t.dPending .trackingError = true))
          ∧ (faulty = false → h.state = .onTarget → f.normal = none →
              (t.hel i).state = .onTarget ∧ (t.hel i).dev = h.dev)
          ∧ (h.state = .excluded ∨ h.state = .faulted ∨ (faulty = false ∧ (h.state = .stowed ∨ h.state = .queued
              ∨ h.state = .standby)) → (t.hel i).state = h.state)
          ∧ (∀ j, j ≠ i → t.hel j = s.hel j))
      ∧ t.sun = s.sun ∧ t.sweep = s.sweep ∧ t.rsg = s.rsg ∧ t.scu = s.scu ∧ t.link = s.link ∧ t.ms = s.ms

/-- A reception that a marker began and that is no answer to the frame in flight. Broken, with a false check, a motion
or fault byte out of range, inverted and unsound, or of normal polarity while the latch is INVERTED, it is corrupt and
counts a CRC error. Stale, it counts nothing of
the line but ends the inverted run. Inverted and sound while the latch is NORMAL, it adds to the inverted run, whose
fourth sets the latch and raises POLARITY_INVERTED. Each raises the reception count: up to three the wait goes on and
no record changes; the fourth ends it in a miss. The model's choices: where no reception was begun, a marker being
RECEPTION_BEGINS's to take, neither row has an effect, whatever the bytes (log 1); a wait that goes on has resumed
within its millisecond (log 19). -/
def Obligations.BadReceptions : Prop :=
  ∀ (s : State) (k : Fin 8) (f : Frame), (s.seg k).frame = some f → f.phase = .awaiting →
    (f.receiving = false → exec (.receptionBroken k) s = .next s
      ∧ ∀ bytes, exec (.receptionComplete k bytes) s = .next s)
    ∧ (f.receiving = true →
      (∃ t, exec (.receptionBroken k) s = .next t ∧ CorruptCounted s t k ∧ ReceptionCounted s t k f true
        ∧ (f.receptions < 3 → (∀ j, j ≠ k.val → t.seg j = s.seg j) ∧ { t with segs := s.segs, devents := s.devents } = s))
      ∧ (∀ (bytes body : List Byte) (r : ReplyFields),
          bytes.map (s.seg k).receive = 0x7E :: 0xA5 :: body
            ∨ ((s.seg k).inverted = true ∧ bytes.map (s.seg k).receive = 0x81 :: 0x5A :: body) →
          replyFields body = some r →
          ∃ t, exec (.receptionComplete k bytes) s = .next t
            ∧ (r.sound = true → r.answers f = false → ReceptionCounted s t k f false
                ∧ (t.seg k).crcErrors = (s.seg k).crcErrors ∧ (t.seg k).errorRun = (s.seg k).errorRun
                ∧ (t.seg k).invertedRun = 0 ∧ (f.receptions < 3 → { t with segs := s.segs } = s))
            ∧ (r.crcOk = false ∨ r.seqMotion.toNat / 16 = 0 ∨ 4 < r.seqMotion.toNat / 16 ∨ 15 < r.fault.toNat →
                CorruptCounted s t k ∧ ReceptionCounted s t k f true
                ∧ (f.receptions < 3 → { t with segs := s.segs, devents := s.devents } = s)))
      ∧ (∀ (bytes body : List Byte) (r : ReplyFields), (s.seg k).inverted = true →
          bytes = 0x7E :: 0xA5 :: body → replyFields body = some r → r.crcOk = true →
          ∃ t, exec (.receptionComplete k bytes) s = .next t ∧ CorruptCounted s t k ∧ ReceptionCounted s t k f true
            ∧ (f.receptions < 3 → { t with segs := s.segs, devents := s.devents } = s))
      ∧ (∀ (bytes body : List Byte) (r : ReplyFields), (s.seg k).inverted = false →
          bytes = 0x81 :: 0x5A :: body → replyFields (body.map (~~~·)) = some r →
          ∃ t, exec (.receptionComplete k bytes) s = .next t
            ∧ (r.sound = true → ReceptionCounted s t k f false
                ∧ (t.seg k).crcErrors = (s.seg k).crcErrors ∧ (t.seg k).errorRun = (s.seg k).errorRun
                ∧ ((s.seg k).invertedRun < 3 → (t.seg k).inverted = false
                    ∧ (t.seg k).invertedRun = (s.seg k).invertedRun + 1)
                ∧ (3 ≤ (s.seg k).invertedRun → (t.seg k).inverted = true ∧ (t.seg k).invertedRun = 0
                    ∧ t.dPending .polarityInverted = true)
                ∧ (f.receptions < 3 → { t with segs := s.segs, devents := s.devents } = s))
            ∧ (r.sound = false → CorruptCounted s t k ∧ ReceptionCounted s t k f true
                ∧ (f.receptions < 3 → { t with segs := s.segs, devents := s.devents } = s))))

/-- REPLY_TIMEOUT while hunting ends the wait in a miss, once the whole milliseconds left of it have passed (the
model's choice, logs 3 and 19): the dialogue ends, the miss counts in the pass counter and, up to 15, in the record;
from the miss limit on a STOWED, STANDBY or QUEUED heliostat becomes OFFLINE, and an ON_TARGET one becomes OFFLINE as
a departure that strands what it contributed in its zone. An orphaned frame's miss writes no record and no pass
counter. A maintenance record is returned NO_REPLY either way. -/
def Obligations.ReplyTimeout : Prop :=
  ∀ (s : State) (k : Fin 8) (f : Frame), (s.seg k).frame = some f → f.phase = .awaiting → f.receiving = false →
    ∃ t, exec (.replyTimeout k) s = .next t ∧ (t.seg k).frame = none ∧ (t.seg k).answered = (s.seg k).answered
      ∧ (f.orphaned = true → t.hels = s.hels ∧ t.zones = s.zones ∧ (t.seg k).missed = (s.seg k).missed)
      ∧ (∀ (i : Nat) (h : Hel), f.orphaned = false → f.heliostat = some i → h = s.hel i →
          (t.seg k).missed = min 65535 ((s.seg k).missed + 1)
          ∧ (t.hel i).miss = min 15 (h.miss + 1)
          ∧ (min 15 (h.miss + 1) < s.link.missLimit →
              t.hel i = { h with miss := min 15 (h.miss + 1) } ∧ t.zones = s.zones)
          ∧ (s.link.missLimit ≤ min 15 (h.miss + 1) →
              (h.state = .stowed ∨ h.state = .standby ∨ h.state = .queued →
                (t.hel i).state = .offline ∧ (t.hel i).stranded = h.stranded ∧ t.dPending .heliostatOffline = true)
              ∧ (h.state = .onTarget →
                (t.hel i).state = .offline ∧ (t.hel i).departing = true
                ∧ (t.hel i).stranded = some ⟨s.joinZone h, s.pEff h⟩
                ∧ (t.zone (s.joinZone h)).stranded = (s.zone (s.joinZone h)).stranded + s.pEff h
                ∧ t.dPending .heliostatOffline = true)
              ∧ (h.state = .offline ∨ h.state = .faulted ∨ h.state = .excluded → (t.hel i).state = h.state))
          ∧ (∀ j, j ≠ i → t.hel j = s.hel j))
      ∧ (f.origin = .maint → f.receptions < 4 → t.dPending .maintReturned = true
          ∧ RecordReturned (s.seg k) (t.seg k) .noReply none)
      ∧ (∀ j : Fin 8, t.timer j = (s.timer j).map (· - f.remaining / 1000))
      ∧ t.sun = s.sun ∧ t.sweep = s.sweep ∧ t.scu = s.scu ∧ t.link = s.link
      ∧ t.ms = s.ms + BitVec.ofNat 32 (f.remaining / 1000)

/-- The babble lock: an enabled segment whose driver is off becomes LOCKED, its dialogue, pass and quiet countdown
end, and its queue, ring, latch, rates and runs are kept. While it is LOCKED an idle line starts the quiet
countdown from QUIET, activity stops it, and its end makes the segment WAITING or IDLE. The measure of active time is
the model's reading (log 9). Its choices: the row locks whatever the measure, and records the line as active (log 18);
the maintenance turn is cleared where no pass is in progress, too (log 23); a line that falls idle, or becomes active,
without having been otherwise acts all the same (log 31). -/
def Obligations.BabbleLock : Prop :=
  ∀ (s : State) (k : Fin 8) (g : Seg), g = s.seg k →
    (g.state ≠ .disabled → g.state ≠ .locked → g.driverEnable = false →
      ∃ t, exec (.segmentLocked k) s = .next t
        ∧ t.seg k = { g with
            state := .locked
            frame := none
            passPos := none
            pendingRelease := false
            turn := false
            quietLeft := none
            activeUs := none }
        ∧ t.dPending .segmentLocked = true ∧ (∀ j, j ≠ k.val → t.seg j = s.seg j)
        ∧ { t with segs := s.segs, devents := s.devents, pins := s.pins } = s)
    ∧ (∃ t, exec (.lineFallsIdle k) s = .next t
        ∧ t.seg k = { g with
            activeUs := none
            quietLeft := if g.state = .locked then some (g.quiet * 10) else g.quietLeft }
        ∧ (∀ j, j ≠ k.val → t.seg j = s.seg j) ∧ t.rxActive k = false
        ∧ { t with segs := s.segs, pins := s.pins } = s)
    ∧ (∃ t, exec (.rxLineActive k) s = .next t ∧ (t.seg k).quietLeft = none
        ∧ (t.seg k).activeUs = (if g.state = .disabled ∨ g.state = .locked ∨ g.driverEnable = true then none
            else some (g.activeUs.getD (-1000)))
        ∧ { t.seg k with quietLeft := none, activeUs := none } = { g with quietLeft := none, activeUs := none }
        ∧ (∀ j, j ≠ k.val → t.seg j = s.seg j) ∧ t.rxActive k = true
        ∧ { t with segs := s.segs, pins := s.pins } = s)
    ∧ (∀ d, g.state = .locked → g.quietLeft = some d →
        ∃ t, exec (.quietExpiry k) s = .next t ∧ (t.seg k).quietLeft = none
          ∧ (t.seg k).state = (if (s.timer k).isSome then .waiting else .idle)
          ∧ t.ms = s.ms + BitVec.ofNat 32 d ∧ (t.seg k).owed = g.owed ∧ (t.seg k).urgent = g.urgent
          ∧ t.devents = s.devents ∧ t.hels = s.hels ∧ t.zones = s.zones)

/-! ### Cloud shadow sensing -/

/-- SET_SHADE writes every setting, limited where its rule limits it; each buffer keeps its newest records; a channel
shaded longer than the new SHADE_MAX becomes STUCK with SENSOR_STUCK on both ports; and every segment ends with
the shade that its new map and the sensor states give. -/
def Obligations.SetShade : Prop :=
  ∀ (s : State) (m d : BitVec 64) (f : BitVec 16) (q x : Byte), s.accepts (.setShade m f q x d) = true →
    ∃ t, exec (.setShade m f q x d) s = .next t
      ∧ (∀ limited : Bool,
          (limited = true ↔ 256 < f.toNat ∨ ∃ k < 8, (byteAt d k).toNat = 0 ∨ 8 < (byteAt d k).toNat) →
          Delivered s t .dispatch (if limited then .clamped else .done))
      ∧ t.scu.shf = min 256 f.toNat ∧ t.scu.qual = q.toNat ∧ t.scu.shadeMax = x.toNat
      ∧ (∀ k < 8, (t.shade k).map = byteAt m k ∧ (t.shade k).shaded = t.derivedShade k)
      ∧ (∀ k < 8, ∀ n, n = max 1 (min 8 (byteAt d k).toNat) → ∀ stuck : Bool,
          (stuck = true ↔ (s.channel k).state = .shaded ∧ x ≠ 0
            ∧ x.toNat * 1000 < since s.ms (s.channel k).shadeStart) →
          t.channel k = { s.channel k with
            depth := n
            records := (s.channel k).records.drop ((s.channel k).records.length - n)
            state := if stuck then .stuck else (s.channel k).state }
          ∧ (stuck = true → t.dPending .sensorStuck = true ∧ t.pPending .sensorStuck = true))
      ∧ SettleFrame { s with scu := t.scu } t

/-- SHADOW_SENSOR_CHANGE: a sample at the qualified level drops the candidate; a differing one begins a candidate
with this sample's time and QUAL, or lets the one pending run on while its time is not up, and sensor state, shade and
records stand. Where QUAL is 0 and no candidate is pending, or the pending one's time is up, a differing sample
qualifies at once: an onset of a SUNLIT channel, an end of another, from this sample's time or the candidate's start.
That an end keeps the channel's shade start is the model's choice (log 24). -/
def Obligations.SensorSample : Prop :=
  ∀ (s : State) (k : Fin 8) (level : Bool) (c : Channel), c = s.channel k →
    (level = (c.state == .sunlit) ∨ (c.cand = none ∧ s.scu.qual ≠ 0)
        ∨ (∃ cd, c.cand = some cd ∧ since s.ms cd.start < since cd.deadline cd.start) →
      ∃ t, exec (.shadowSensorChange k level) s = .next t
        ∧ t.channel k = { c with
            cand := if level = (c.state == .sunlit) then none
              else match c.cand with
                | some cd => some cd
                | none => some ⟨s.ms, s.ms + BitVec.ofNat 32 (s.scu.qual * 10)⟩ }
        ∧ (∀ j, j ≠ k.val → t.channel j = s.channel j) ∧ t.pins.shd.getLsbD k = level
        ∧ { t with scu := s.scu, pins := s.pins } = s ∧ { t.scu with channels := s.scu.channels } = s.scu)
    ∧ (∀ start, level ≠ (c.state == .sunlit) →
        (c.cand = none ∧ s.scu.qual = 0 ∧ start = s.ms)
          ∨ (∃ cd, c.cand = some cd ∧ since cd.deadline cd.start ≤ since s.ms cd.start ∧ start = cd.start) →
        ∃ t, exec (.shadowSensorChange k level) s = .next t ∧ t.ms = s.ms ∧ t.pins.shd.getLsbD k = level
          ∧ (c.state = .sunlit → SensorOnset s t k c start) ∧ (c.state ≠ .sunlit → SensorEnd s t k c start))

/-- SHADOW_ONSET of a SUNLIT channel with a candidate: at the candidate's deadline the channel is SHADED from the
candidate's start; a record is opened where the buffer has room, otherwise the overrun is counted and
CAPTURE_OVERRUN raised. SHADOW_END of a SHADED or STUCK one: the channel is SUNLIT and its open record is closed with
the time from onset to the candidate's start; that its shade start stands is the model's choice (log 24). SENSOR_STUCK
of a SHADED channel under a limit: once the limit is exceeded the channel is STUCK and the event is raised on both
ports. Each re-derives the shade of the segments whose map holds the sensor. The time that passes up to the row's
moment is the model's choice (log 3). -/
def Obligations.ShadowEvents : Prop :=
  ∀ (s : State) (k : Fin 8) (c : Channel), c = s.channel k →
    (∀ cd, c.state = .sunlit → c.cand = some cd →
      ∃ t, exec (.shadowOnset k) s = .next t
        ∧ t.ms = s.ms + BitVec.ofNat 32 (since cd.deadline cd.start - since s.ms cd.start)
        ∧ SensorOnset s t k c cd.start)
    ∧ (∀ cd, c.state ≠ .sunlit → c.cand = some cd →
      ∃ t, exec (.shadowEnd k) s = .next t
        ∧ t.ms = s.ms + BitVec.ofNat 32 (since cd.deadline cd.start - since s.ms cd.start)
        ∧ SensorEnd s t k c cd.start)
    ∧ (c.state = .shaded → s.scu.shadeMax ≠ 0 →
      ∃ t, exec (.sensorStuck k) s = .next t ∧ t.channel k = { c with state := .stuck }
        ∧ t.dPending .sensorStuck = true ∧ t.pPending .sensorStuck = true
        ∧ t.ms = s.ms + BitVec.ofNat 32 (s.scu.shadeMax * 1000 + 1 - since s.ms c.shadeStart)
        ∧ ShadeFollowed s t k)

/-! ### Protective actions -/

/-- STOW and UNSTOW set and clear the stow command. The first source engages stow, the last one to leave releases
it, and a change that leaves stow in effect as it was moves nothing. A release queues the STOWED heliostats with an
assignment and TRACKING_ERROR clear; the other STOWED ones stay STOWED. -/
def Obligations.StowCommands : Prop :=
  ∀ s : State,
    (s.accepts .stow = true →
      ∃ t, exec .stow s = .next t ∧ Delivered s t .dispatch .done ∧ t.pau.stowCommand = true
        ∧ t.stowInEffect = true ∧ t.pau.asserted = s.pau.asserted
        ∧ (if s.stowInEffect then t.bare = { s with pau := { s.pau with stowCommand := true } }.bare
          else StowEngaged s t
            ∧ t.rest = { s with pau := { s.pau with stowCommand := true } }.rest
            ∧ ∀ i, (t.hel i).still = (s.hel i).still))
    ∧ (s.accepts .unstow = true →
      ∃ t, exec .unstow s = .next t ∧ Delivered s t .dispatch .done ∧ t.pau.stowCommand = false
        ∧ t.stowInEffect = s.pau.asserted ∧ t.pau.asserted = s.pau.asserted
        ∧ (if s.pau.stowCommand = false ∨ s.pau.asserted = true then
            t.bare = { s with pau := { s.pau with stowCommand := false } }.bare
          else StowReleased s t
            ∧ t.rest = { s with pau := { s.pau with stowCommand := false } }.rest
            ∧ ∀ i, (t.hel i).still = (s.hel i).still))

/-- STOW_LINE_CHANGE: a sample at the qualified level drops the candidate; a differing one begins a candidate of
20 ms, or lets the one pending run on while its time is not up; one at which its time is up qualifies at once.
STOW_LINE_QUALIFIED: the change qualifies at the candidate's deadline. A qualified change changes the line request, and
stow engages or is released by it where the stow command does not hold it. -/
def Obligations.StowLine : Prop :=
  ∀ s : State,
    (∀ level : Bool,
      (level = (!s.pau.asserted) ∨ s.pau.lineCand = none
        ∨ ∃ cd, s.pau.lineCand = some cd ∧ since s.ms cd.start < since cd.deadline cd.start) →
      ∃ t, exec (.stowLineChange level) s = .next t
        ∧ t.pau = { s.pau with
            stowSampled := level
            lineCand := if level = (!s.pau.asserted) then none
              else match s.pau.lineCand with
                | some cd => some cd
                | none => some ⟨s.ms, s.ms + 20⟩ }
        ∧ t.pins = { s.pins with stowreqN := level } ∧ { t with pau := s.pau, pins := s.pins } = s)
    ∧ (∀ cd, s.pau.lineCand = some cd →
      ∃ t, exec .stowLineQualified s = .next t ∧ LineQualified s t
        ∧ t.ms = s.ms + BitVec.ofNat 32 (since cd.deadline cd.start - since s.ms cd.start))
    ∧ (∀ cd, s.pau.lineCand = some cd → since cd.deadline cd.start ≤ since s.ms cd.start →
      ∃ t, exec (.stowLineChange s.pau.asserted) s = .next t ∧ LineQualified s t
        ∧ t.rest = { s with
            pau := { s.pau with asserted := !s.pau.asserted, lineCand := none, stowSampled := s.pau.asserted }
            pins := { s.pins with stowreqN := s.pau.asserted } }.rest)

/-- FIELD_DEFOCUS (R161) engages defocus with the cause PROTECTION, whether or not stow is in effect, and changes
nothing where defocus is in effect. FIELD_RELEASE releases a defocus in effect: flag, cause and deadline countdown are
cleared, DEFOCUS_CHANGE is raised, and every zone settles and ends within its limit or with nothing aimed at it; it
changes nothing where none is in effect. -/
def Obligations.Defocus : Prop :=
  (∀ s : State, s.accepts .fieldDefocus = true →
      ∃ t, exec .fieldDefocus s = .next t ∧ Delivered s t .protection .done
        ∧ (s.pau.defocus = true → t.bare = s.bare ∧ t.pau.cause = s.pau.cause
            ∧ t.pau.deadlineLeft = s.pau.deadlineLeft ∧ t.pau.lateCount = s.pau.lateCount)
        ∧ (s.pau.defocus = false → DefocusEngaged s t .protection
            ∧ SettleFrame { s with pau := { s.pau with
                defocus := true, cause := .protection, lateCount := 0, deadlineLeft := some (s.pau.deadline * 100) } } t))
  ∧ (∀ s : State, s.accepts .fieldRelease = true →
      ∃ t, exec .fieldRelease s = .next t ∧ Delivered s t .protection .done
        ∧ (s.pau.defocus = false → t.bare = s.bare)
        ∧ (s.pau.defocus = true → t.dPending .defocusChange = true ∧ t.zonesSafe
            ∧ t.pau.lateCount = s.pau.lateCount
            ∧ SettleFrame { s with pau := { s.pau with defocus := false, cause := .none, deadlineLeft := none } } t))

/-- SET_DEADLINE limits DEADLINE to 1..600 and leaves a running countdown; SUPERVISE writes SUP_PERIOD and restarts
the countdown with it, 0 stopping it. DEADLINE_EXPIRY stops the countdown and, where heliostats are departing, counts
them and raises DEFOCUS_LATE. SUPERVISION_EXPIRED stops its countdown, keeps SUP_PERIOD, raises its event on both
ports and engages defocus with the cause SUPERVISION where none is in effect. -/
def Obligations.ProtectionTimers : Prop :=
  (∀ s : State,
      (∀ v : BitVec 16, s.accepts (.setDeadline v) = true →
        ∃ t, exec (.setDeadline v) s = .next t
          ∧ Delivered s t .protection (if v.toNat = 0 ∨ 600 < v.toNat then .clamped else .done)
          ∧ t.pau.deadline = (if v.toNat = 0 then 1 else if 600 < v.toNat then 600 else v.toNat)
          ∧ t.bare = { s with pau := { s.pau with deadline := t.pau.deadline } }.bare)
      ∧ (∀ v : Byte, s.accepts (.supervise v) = true →
        ∃ t, exec (.supervise v) s = .next t
          ∧ (t.txn .protection).phase = .completion ∧ (t.txn .protection).completion = some .done
          ∧ t.dpt = s.dpt ∧ t.pau.supPeriod = v.toNat
          ∧ t.pau.supLeft = (if v = 0 then none else some (v.toNat * 10))
          ∧ t.bare = { s with pau := { s.pau with supPeriod := v.toNat } }.bare))
  ∧ (∀ (s : State) (d : Nat),
      (s.pau.deadlineLeft = some d →
        ∃ t, exec .deadlineExpiry s = .next t ∧ t.pau.deadlineLeft = none ∧ t.ms = s.ms + BitVec.ofNat 32 d
          ∧ (0 < s.departingCount → t.pau.lateCount = s.departingCount ∧ t.pPending .defocusLate = true)
          ∧ (s.departingCount = 0 → t.pau.lateCount = s.pau.lateCount ∧ t.pevents = s.pevents)
          ∧ t.pau.defocus = s.pau.defocus ∧ t.pau.cause = s.pau.cause ∧ t.devents = s.devents
          ∧ t.hels = s.hels ∧ t.zones = s.zones)
      ∧ (s.pau.supLeft = some d →
        ∃ t, exec .supervisionExpired s = .next t ∧ t.pau.supLeft = none ∧ t.pau.supPeriod = s.pau.supPeriod
          ∧ t.ms = s.ms + BitVec.ofNat 32 d
          ∧ t.dPending .supervisionExpired = true ∧ t.pPending .supervisionExpired = true
          ∧ (s.pau.defocus = false → DefocusEngaged s t .supervision)
          ∧ (s.pau.defocus = true → t.pau.defocus = true ∧ t.pau.cause = s.pau.cause
              ∧ t.pau.lateCount = s.pau.lateCount ∧ t.hels = s.hels ∧ t.zones = s.zones)
          ∧ ∀ i, (t.hel i).still = (s.hel i).still))

/-! ### Rules of the whole block -/

/-- Every well-formed port command is read back from the bytes it travels as: no operand bit is dropped. Clocked into
a port bit by bit, most significant first, its bytes are that command: the state after the delivery edge is the
command's row's, and 0xFF is on the data output until then. Eight cycles then shift out the byte the port holds,
whatever the master sends: the completion code, an object's bytes, 0xFF in fill; the completion byte is followed by
the object of a taken read or by fill, an object's last byte by the next object or by fill. Edges are ignored while
DESELECTED. -/
def Obligations.WireRoundTrip : Prop :=
  (∀ (c : Instr) (w : WireCmd), wire c = some w → c.wellFormed = true →
      decodeWire w.port (w.code :: w.operands) = some c)
  ∧ (∀ (s : State) (c : Instr) (w : WireCmd), wire c = some w → c.wellFormed = true → s.selectLow w.port = true →
      s.txn w.port = { Txn.reset with phase := .command } →
      ∃ t, exec c s = .next t
        ∧ clockBits w.port ((w.code :: w.operands).flatMap msbFirst) s
            = some (t, List.replicate (8 * (1 + w.operands.length)) (some true)))
  ∧ (∀ (s : State) (p : Port) (bits : List Bool) (x : Txn), x = s.txn p → bits.length = 8 → s.selectLow p = true →
      x.bitCount = 0 → x.high = false → x.out = x.outByte.getLsbD 7 →
      (x.phase = .completion ∧ x.completion.isSome ∧ x.position = 0)
        ∨ (x.phase = .data ∧ x.completion.isSome ∧ x.position < x.object.length) ∨ x.phase = .fill →
      ∃ t, clockBits p bits s = some (t, (msbFirst x.outByte).map some)
        ∧ (x.phase = .completion → x.outByte = (x.completion.map Code.byte).getD 0xFF
            ∧ (t.txn p).object = x.object ∧ (t.txn p).phase = if x.object = [] then .fill else .data)
        ∧ (x.phase = .data → x.outByte = x.object.getD x.position 0xFF
            ∧ (x.position + 1 < x.object.length →
                (t.txn p).phase = .data ∧ (t.txn p).object = x.object ∧ (t.txn p).position = x.position + 1)
            ∧ (x.object.length ≤ x.position + 1 → (t.txn p).position = 0 ∧ match x.cursor with
                | some c => (t.txn p).phase = .data ∧ (t.txn p).object = t.objectAt c ∧ (t.txn p).cursor = c.next
                | none => (t.txn p).phase = .fill ∧ (t.txn p).object = []))
        ∧ (x.phase = .fill → x.outByte = 0xFF ∧ (t.txn p).phase = .fill)
        ∧ (t.txn p).bitCount = 0 ∧ (t.txn p).high = false ∧ (t.txn p).out = (t.txn p).outByte.getLsbD 7
        ∧ t.txn (otherPort p) = s.txn (otherPort p) ∧ { t with dpt := s.dpt, ppt := s.ppt, draws := s.draws } = s)
  ∧ (∀ (s : State) (p : Port) (b : Bool), (s.txn p).phase = .deselected → s.sckCycle p b = .next s)

/-- Reset meets the invariants of the block. -/
def Obligations.ResetMeetsInvariants : Prop :=
  State.reset.tablesOk = true ∧ State.reset.clearOk ∧ State.reset.unitsOk ∧ State.reset.blocksOk ∧ State.reset.recordsOk
    ∧ State.reset.booksOk ∧ State.reset.zonesSafe ∧ State.reset.addressesUnique

/-- Every step keeps every table in its canonical form, and no two present records share segment and drop. -/
def Obligations.TablesStayCanonical : Prop :=
  (∀ s t : State, s.tablesOk = true → step s = .next t → t.tablesOk = true)
  ∧ (∀ s t : State, s.tablesOk = true → s.addressesUnique → step s = .next t → t.addressesUnique)

/-- FIELD_CLEAR stays high exactly while no heliostat is ON_TARGET, none is departing and no flux is stranded: by the
zones' figures after every step, and by the records themselves while the books are right. -/
def Obligations.FieldClearStaysTrue : Prop :=
  (∀ s t : State, s.clearOk → step s = .next t → t.clearOk)
  ∧ (∀ s : State, s.clearOk → s.booksOk →
      (s.pau.fieldClear = true ↔ ∀ i, (s.hel i).state ≠ .onTarget ∧ (s.hel i).departing = false
        ∧ ∀ st, (s.hel i).stranded = some st → st.amount = 0))

/-- Every rise of FIELD_CLEAR but the one at the end of reset raises DEFOCUS_COMPLETE in the same action. -/
def Obligations.RiseRaisesComplete : Prop :=
  ∀ s t : State, step s = .next t → s.pending.head? ≠ some .pinReset →
    s.pau.fieldClear = false → t.pau.fieldClear = true → t.pPending .defocusComplete = true

/-- Part-wide settings, countdowns and counts, and those of zones, segments, frames in flight and channels stay in
their ranges. -/
def Obligations.SettingsStayInRange : Prop :=
  ∀ s t : State, s.unitsOk → s.blocksOk → step s = .next t → t.unitsOk ∧ t.blocksOk

/-- The identity, normals, counts and contributions of every record stay in their ranges: no component of a normal
exceeds 32767 in magnitude and no contribution 983,025 W. -/
def Obligations.RecordsStayInRange : Prop :=
  ∀ s t : State, s.recordsOk → step s = .next t → t.recordsOk

/-- Nothing but the protection port and pin reset changes a protection limit, a hold, a rejoin ramp, the deadline
setting or the supervision period. -/
def Obligations.ProtectionSettingsIsolated : Prop :=
  ∀ (s t : State) (z : Nat), step s = .next t →
    (∀ c, s.pending.head? = some c → c ≠ .pinReset ∧ ∀ w, wire c = some w → w.port = .dispatch) →
    t.protectionSettings z = s.protectionSettings z
end

