-- ==== Sys2Proof/Laws/Table.lean ====
section
/-! SUPPORT. The laws of sparse tables: reading after writing, and the canonical form. -/

namespace Sys2Proof.Machine

variable {α : Type}

@[simp] theorem Tab.get_nil (d : α) (i : Nat) : Tab.get d [] i = d := rfl

theorem Tab.get_erase_same (d : α) (t : Tab α) (i : Nat) : Tab.get d (Tab.erase t i) i = d := by
  induction t with
  | nil => rfl
  | cons e t ih =>
    by_cases h : e.1 = i
    · simpa [Tab.erase, h] using ih
    · simpa [Tab.erase, Tab.get, h] using ih

theorem Tab.get_erase_ne (d : α) (t : Tab α) {i j : Nat} (hij : j ≠ i) :
    Tab.get d (Tab.erase t i) j = Tab.get d t j := by
  induction t with
  | nil => rfl
  | cons e t ih =>
    by_cases h : e.1 = i
    · have : e.1 ≠ j := fun hj => hij (hj ▸ h)
      simpa [Tab.erase, Tab.get, h, Ne.symm hij] using ih
    · by_cases hj : e.1 = j
      · simp [Tab.erase, Tab.get, hj, hij]
      · simpa [Tab.erase, Tab.get, h, hj] using ih

theorem Tab.get_insert_same (d v : α) (t : Tab α) (i : Nat) (hi : ∀ e ∈ t, e.1 ≠ i) :
    Tab.get d (Tab.insert i v t) i = v := by
  induction t with
  | nil => simp [Tab.insert, Tab.get]
  | cons e t ih =>
    have he : e.1 ≠ i := hi e (by simp)
    by_cases h : i < e.1
    · simp [Tab.insert, Tab.get, h]
    · simpa [Tab.insert, Tab.get, h, he] using ih fun e' he' => hi e' (by simp [he'])

theorem Tab.get_insert_ne (d v : α) (t : Tab α) {i j : Nat} (hij : j ≠ i) :
    Tab.get d (Tab.insert i v t) j = Tab.get d t j := by
  induction t with
  | nil => simp [Tab.insert, Tab.get, Ne.symm hij]
  | cons e t ih =>
    by_cases h : i < e.1
    · simp [Tab.insert, Tab.get, h, Ne.symm hij]
    · by_cases hj : e.1 = j
      · subst hj; simp [Tab.insert, Tab.get, h]
      · simpa [Tab.insert, Tab.get, h, hj] using ih

theorem Tab.mem_erase {t : Tab α} {i : Nat} {e : Nat × α} : e ∈ Tab.erase t i ↔ e ∈ t ∧ e.1 ≠ i := by
  simp [Tab.erase]

theorem Tab.mem_insert {t : Tab α} {i : Nat} {v : α} {e : Nat × α} :
    e ∈ Tab.insert i v t ↔ e = (i, v) ∨ e ∈ t := by
  induction t with
  | nil => simp [Tab.insert]
  | cons x t ih =>
    by_cases h : i < x.1
    · simp [Tab.insert, h]
    · simp [Tab.insert, h, ih]; tauto

variable [DecidableEq α]

/-- A slot that was written reads as what was written. -/
@[simp] theorem Tab.get_put_same (d v : α) (t : Tab α) (i : Nat) : Tab.get d (Tab.put d t i v) i = v := by
  by_cases h : v = d
  · simp [Tab.put, h, Tab.get_erase_same]
  · simp only [Tab.put, h, if_false]
    exact Tab.get_insert_same d v _ i fun e he => (Tab.mem_erase.1 he).2

/-- Every other slot reads as before. -/
theorem Tab.get_put_ne (d v : α) (t : Tab α) {i j : Nat} (hij : j ≠ i) :
    Tab.get d (Tab.put d t i v) j = Tab.get d t j := by
  by_cases h : v = d
  · simp [Tab.put, h, Tab.get_erase_ne d t hij]
  · simp [Tab.put, h, Tab.get_insert_ne d v _ hij, Tab.get_erase_ne d t hij]

theorem Tab.get_put (d v : α) (t : Tab α) (i j : Nat) :
    Tab.get d (Tab.put d t i v) j = if j = i then v else Tab.get d t j := by
  by_cases h : j = i
  · subst h; simp
  · simp [h, Tab.get_put_ne d v t h]

/-- The canonical form, spelled out. -/
theorem Tab.wf_iff (d : α) (t : Tab α) :
    Tab.wf d t = true ↔ (∀ e ∈ t, e.2 ≠ d) ∧ t.Pairwise (fun a b => a.1 < b.1) := by
  induction t with
  | nil => simp [Tab.wf]
  | cons e t ih =>
    cases t with
    | nil => simp [Tab.wf]
    | cons e' t' =>
      constructor
      · intro h
        simp only [Tab.wf, Bool.and_eq_true, decide_eq_true_eq] at h
        obtain ⟨⟨h1, h2⟩, h3⟩ := h
        obtain ⟨h4, h5⟩ := ih.1 h3
        refine ⟨fun x hx => ?_, List.pairwise_cons.2 ⟨fun x hx => ?_, h5⟩⟩
        · rcases List.mem_cons.1 hx with rfl | hx
          · exact h1
          · exact h4 x hx
        · rcases List.mem_cons.1 hx with rfl | hx
          · exact h2
          · exact h2.trans ((List.pairwise_cons.1 h5).1 x hx)
      · rintro ⟨h1, h2⟩
        obtain ⟨h3, h4⟩ := List.pairwise_cons.1 h2
        simp only [Tab.wf, Bool.and_eq_true, decide_eq_true_eq]
        exact ⟨⟨h1 e (by simp), h3 e' (by simp)⟩, ih.2 ⟨fun x hx => h1 x (by simp [hx]), h4⟩⟩

theorem Tab.wf_nil (d : α) : Tab.wf d ([] : Tab α) = true := rfl

theorem Tab.wf_erase {d : α} {t : Tab α} (h : Tab.wf d t = true) (i : Nat) :
    Tab.wf d (Tab.erase t i) = true := by
  rw [Tab.wf_iff] at *
  exact ⟨fun e he => h.1 e (Tab.mem_erase.1 he).1, h.2.filter _⟩

omit [DecidableEq α] in
theorem Tab.insert_pairwise {t : Tab α} (h : t.Pairwise (fun a b => a.1 < b.1)) {i : Nat} (v : α)
    (hi : ∀ e ∈ t, e.1 ≠ i) : (Tab.insert i v t).Pairwise (fun a b => a.1 < b.1) := by
  induction t with
  | nil => simp [Tab.insert]
  | cons e t ih =>
    obtain ⟨h1, h2⟩ := List.pairwise_cons.1 h
    by_cases hlt : i < e.1
    · simp only [Tab.insert, hlt, if_true]
      refine List.pairwise_cons.2 ⟨fun x hx => ?_, h⟩
      rcases List.mem_cons.1 hx with rfl | hx
      · exact hlt
      · exact hlt.trans (h1 x hx)
    · simp only [Tab.insert, hlt, if_false]
      refine List.pairwise_cons.2 ⟨fun x hx => ?_, ih h2 fun e' he' => hi e' (by simp [he'])⟩
      rcases Tab.mem_insert.1 hx with rfl | hx
      · have := hi e (by simp); simp only; omega
      · exact h1 x hx

/-- Writing a slot keeps the canonical form. -/
theorem Tab.wf_put {d : α} {t : Tab α} (h : Tab.wf d t = true) (i : Nat) (v : α) :
    Tab.wf d (Tab.put d t i v) = true := by
  by_cases hv : v = d
  · simp [Tab.put, hv, Tab.wf_erase h i]
  · have he := (Tab.wf_iff d _).1 (Tab.wf_erase h i)
    simp only [Tab.put, hv, if_false]
    refine (Tab.wf_iff d _).2 ⟨fun e hm => ?_, Tab.insert_pairwise he.2 v fun e hm => (Tab.mem_erase.1 hm).2⟩
    rcases Tab.mem_insert.1 hm with rfl | hm
    · exact hv
    · exact he.1 e hm

/-- Rewriting several slots keeps the canonical form. -/
theorem Tab.wf_update {d : α} (f : Nat → α → α) (is : List Nat) {t : Tab α} (h : Tab.wf d t = true) :
    Tab.wf d (Tab.update d f is t) = true := by
  unfold Tab.update
  induction is generalizing t with
  | nil => exact h
  | cons i is ih => exact ih (Tab.wf_put h i _)

/-- A slot that is not rewritten reads as before. -/
theorem Tab.get_update_notMem (d : α) (f : Nat → α → α) (is : List Nat) (t : Tab α) {j : Nat} (hj : j ∉ is) :
    Tab.get d (Tab.update d f is t) j = Tab.get d t j := by
  unfold Tab.update
  induction is generalizing t with
  | nil => rfl
  | cons i is ih =>
    simp only [List.mem_cons, not_or] at hj
    simp only [List.foldl_cons]
    rw [ih _ hj.2, Tab.get_put_ne d _ t hj.1]

/-- Each slot rewritten once reads as its rewritten value. -/
theorem Tab.get_update_mem (d : α) (f : Nat → α → α) (is : List Nat) (t : Tab α) {j : Nat} (hj : j ∈ is)
    (hd : is.Nodup) : Tab.get d (Tab.update d f is t) j = f j (Tab.get d t j) := by
  unfold Tab.update
  induction is generalizing t with
  | nil => simp at hj
  | cons i is ih =>
    obtain ⟨hi, hd⟩ := List.nodup_cons.1 hd
    simp only [List.foldl_cons]
    rcases List.mem_cons.1 hj with rfl | hjs
    · rw [show List.foldl (fun t i => Tab.put d t i (f i (Tab.get d t i)))
          (Tab.put d t j (f j (Tab.get d t j))) is = Tab.update d f is (Tab.put d t j (f j (Tab.get d t j))) from rfl,
        Tab.get_update_notMem d f is _ hi, Tab.get_put_same]
    · rw [ih _ hjs hd, Tab.get_put_ne]
      rintro rfl; exact hi hjs

/-- A canonical table is determined by what its slots read. -/
theorem Tab.ext_get {d : α} {t u : Tab α} (ht : Tab.wf d t = true) (hu : Tab.wf d u = true)
    (h : ∀ i, Tab.get d t i = Tab.get d u i) : t = u := by
  have get_mem : ∀ {t : Tab α}, Tab.wf d t = true → ∀ e, e ∈ t ↔ Tab.get d t e.1 = e.2 ∧ e.2 ≠ d := by
    intro t ht e
    rw [Tab.wf_iff] at ht
    induction t with
    | nil => simp; intro h; exact h.symm
    | cons x t ih =>
      obtain ⟨h1, h2⟩ := ht
      obtain ⟨h3, h4⟩ := List.pairwise_cons.1 h2
      have ih' := ih ⟨fun y hy => h1 y (by simp [hy]), h4⟩
      by_cases hx : x.1 = e.1
      · simp only [List.mem_cons, Tab.get, hx, if_true]
        constructor
        · rintro (rfl | he)
          · exact ⟨rfl, h1 e (by simp)⟩
          · have := h3 e he; omega
        · rintro ⟨h5, _⟩
          exact Or.inl (Prod.ext hx.symm h5.symm)
      · simp only [List.mem_cons, Tab.get, hx, if_false]
        rw [← ih']
        constructor
        · rintro (rfl | he)
          · exact absurd rfl hx
          · exact he
        · exact Or.inr
  have hmem : ∀ e, e ∈ t ↔ e ∈ u := fun e => by rw [get_mem ht, get_mem hu, h]
  have st := ((Tab.wf_iff d t).1 ht).2
  have su := ((Tab.wf_iff d u).1 hu).2
  have nt : t.Nodup := st.imp fun {a b} hab he => by simp [he] at hab
  have nu : u.Nodup := su.imp fun {a b} hab he => by simp [he] at hab
  have hp : t.Perm u := (List.perm_ext_iff_of_nodup nt nu).2 hmem
  exact hp.eq_of_pairwise (fun a b _ _ h1 h2 => by omega) st su

end Sys2Proof.Machine
end

