-- ==== Sys2Proof/Laws/State.lean ====
section
/-! SUPPORT. One lemma per field per update of the state, so that no proof unfolds a record update, and what
each read of a numbered record gives after a write. -/

namespace Sys2Proof.Machine

variable (s : State)

/-! ### modHel -/

@[simp] theorem State.modHel_ms (i : Nat) (f : Hel → Hel) : (s.modHel i f).ms = s.ms := rfl
@[simp] theorem State.modHel_points (i : Nat) (f : Hel → Hel) : (s.modHel i f).points = s.points := rfl
@[simp] theorem State.modHel_zones (i : Nat) (f : Hel → Hel) : (s.modHel i f).zones = s.zones := rfl
@[simp] theorem State.modHel_segs (i : Nat) (f : Hel → Hel) : (s.modHel i f).segs = s.segs := rfl
@[simp] theorem State.modHel_sun (i : Nat) (f : Hel → Hel) : (s.modHel i f).sun = s.sun := rfl
@[simp] theorem State.modHel_snapshot (i : Nat) (f : Hel → Hel) : (s.modHel i f).snapshot = s.snapshot := rfl
@[simp] theorem State.modHel_sweep (i : Nat) (f : Hel → Hel) : (s.modHel i f).sweep = s.sweep := rfl
@[simp] theorem State.modHel_lastServed (i : Nat) (f : Hel → Hel) : (s.modHel i f).lastServed = s.lastServed := rfl
@[simp] theorem State.modHel_solveOut (i : Nat) (f : Hel → Hel) : (s.modHel i f).solveOut = s.solveOut := rfl
@[simp] theorem State.modHel_epoch (i : Nat) (f : Hel → Hel) : (s.modHel i f).epoch = s.epoch := rfl
@[simp] theorem State.modHel_rsg (i : Nat) (f : Hel → Hel) : (s.modHel i f).rsg = s.rsg := rfl
@[simp] theorem State.modHel_link (i : Nat) (f : Hel → Hel) : (s.modHel i f).link = s.link := rfl
@[simp] theorem State.modHel_scu (i : Nat) (f : Hel → Hel) : (s.modHel i f).scu = s.scu := rfl
@[simp] theorem State.modHel_pau (i : Nat) (f : Hel → Hel) : (s.modHel i f).pau = s.pau := rfl
@[simp] theorem State.modHel_dpt (i : Nat) (f : Hel → Hel) : (s.modHel i f).dpt = s.dpt := rfl
@[simp] theorem State.modHel_ppt (i : Nat) (f : Hel → Hel) : (s.modHel i f).ppt = s.ppt := rfl
@[simp] theorem State.modHel_form (i : Nat) (f : Hel → Hel) : (s.modHel i f).form = s.form := rfl
@[simp] theorem State.modHel_devents (i : Nat) (f : Hel → Hel) : (s.modHel i f).devents = s.devents := rfl
@[simp] theorem State.modHel_dmask (i : Nat) (f : Hel → Hel) : (s.modHel i f).dmask = s.dmask := rfl
@[simp] theorem State.modHel_pevents (i : Nat) (f : Hel → Hel) : (s.modHel i f).pevents = s.pevents := rfl
@[simp] theorem State.modHel_pmask (i : Nat) (f : Hel → Hel) : (s.modHel i f).pmask = s.pmask := rfl
@[simp] theorem State.modHel_pins (i : Nat) (f : Hel → Hel) : (s.modHel i f).pins = s.pins := rfl
@[simp] theorem State.modHel_draws (i : Nat) (f : Hel → Hel) : (s.modHel i f).draws = s.draws := rfl
@[simp] theorem State.modHel_pending (i : Nat) (f : Hel → Hel) : (s.modHel i f).pending = s.pending := rfl
@[simp] theorem State.modHel_point (i : Nat) (f : Hel → Hel) (j : Nat) : (s.modHel i f).point j = s.point j := rfl
@[simp] theorem State.modHel_zone (i : Nat) (f : Hel → Hel) (j : Nat) : (s.modHel i f).zone j = s.zone j := rfl
@[simp] theorem State.modHel_seg (i : Nat) (f : Hel → Hel) (j : Nat) : (s.modHel i f).seg j = s.seg j := rfl
@[simp] theorem State.modHel_channel (i : Nat) (f : Hel → Hel) (j : Nat) : (s.modHel i f).channel j = s.channel j := rfl
@[simp] theorem State.modHel_shade (i : Nat) (f : Hel → Hel) (j : Nat) : (s.modHel i f).shade j = s.shade j := rfl
@[simp] theorem State.modHel_timer (i : Nat) (f : Hel → Hel) (j : Nat) : (s.modHel i f).timer j = s.timer j := rfl
@[simp] theorem State.modHel_stowInEffect (i : Nat) (f : Hel → Hel) : (s.modHel i f).stowInEffect = s.stowInEffect := rfl

/-! ### setHel -/

@[simp] theorem State.setHel_ms (i : Nat) (h : Hel) : (s.setHel i h).ms = s.ms := rfl
@[simp] theorem State.setHel_points (i : Nat) (h : Hel) : (s.setHel i h).points = s.points := rfl
@[simp] theorem State.setHel_zones (i : Nat) (h : Hel) : (s.setHel i h).zones = s.zones := rfl
@[simp] theorem State.setHel_segs (i : Nat) (h : Hel) : (s.setHel i h).segs = s.segs := rfl
@[simp] theorem State.setHel_sun (i : Nat) (h : Hel) : (s.setHel i h).sun = s.sun := rfl
@[simp] theorem State.setHel_snapshot (i : Nat) (h : Hel) : (s.setHel i h).snapshot = s.snapshot := rfl
@[simp] theorem State.setHel_sweep (i : Nat) (h : Hel) : (s.setHel i h).sweep = s.sweep := rfl
@[simp] theorem State.setHel_lastServed (i : Nat) (h : Hel) : (s.setHel i h).lastServed = s.lastServed := rfl
@[simp] theorem State.setHel_solveOut (i : Nat) (h : Hel) : (s.setHel i h).solveOut = s.solveOut := rfl
@[simp] theorem State.setHel_epoch (i : Nat) (h : Hel) : (s.setHel i h).epoch = s.epoch := rfl
@[simp] theorem State.setHel_rsg (i : Nat) (h : Hel) : (s.setHel i h).rsg = s.rsg := rfl
@[simp] theorem State.setHel_link (i : Nat) (h : Hel) : (s.setHel i h).link = s.link := rfl
@[simp] theorem State.setHel_scu (i : Nat) (h : Hel) : (s.setHel i h).scu = s.scu := rfl
@[simp] theorem State.setHel_pau (i : Nat) (h : Hel) : (s.setHel i h).pau = s.pau := rfl
@[simp] theorem State.setHel_dpt (i : Nat) (h : Hel) : (s.setHel i h).dpt = s.dpt := rfl
@[simp] theorem State.setHel_ppt (i : Nat) (h : Hel) : (s.setHel i h).ppt = s.ppt := rfl
@[simp] theorem State.setHel_form (i : Nat) (h : Hel) : (s.setHel i h).form = s.form := rfl
@[simp] theorem State.setHel_devents (i : Nat) (h : Hel) : (s.setHel i h).devents = s.devents := rfl
@[simp] theorem State.setHel_dmask (i : Nat) (h : Hel) : (s.setHel i h).dmask = s.dmask := rfl
@[simp] theorem State.setHel_pevents (i : Nat) (h : Hel) : (s.setHel i h).pevents = s.pevents := rfl
@[simp] theorem State.setHel_pmask (i : Nat) (h : Hel) : (s.setHel i h).pmask = s.pmask := rfl
@[simp] theorem State.setHel_pins (i : Nat) (h : Hel) : (s.setHel i h).pins = s.pins := rfl
@[simp] theorem State.setHel_draws (i : Nat) (h : Hel) : (s.setHel i h).draws = s.draws := rfl
@[simp] theorem State.setHel_pending (i : Nat) (h : Hel) : (s.setHel i h).pending = s.pending := rfl
@[simp] theorem State.setHel_point (i : Nat) (h : Hel) (j : Nat) : (s.setHel i h).point j = s.point j := rfl
@[simp] theorem State.setHel_zone (i : Nat) (h : Hel) (j : Nat) : (s.setHel i h).zone j = s.zone j := rfl
@[simp] theorem State.setHel_seg (i : Nat) (h : Hel) (j : Nat) : (s.setHel i h).seg j = s.seg j := rfl
@[simp] theorem State.setHel_channel (i : Nat) (h : Hel) (j : Nat) : (s.setHel i h).channel j = s.channel j := rfl
@[simp] theorem State.setHel_shade (i : Nat) (h : Hel) (j : Nat) : (s.setHel i h).shade j = s.shade j := rfl
@[simp] theorem State.setHel_timer (i : Nat) (h : Hel) (j : Nat) : (s.setHel i h).timer j = s.timer j := rfl
@[simp] theorem State.setHel_stowInEffect (i : Nat) (h : Hel) : (s.setHel i h).stowInEffect = s.stowInEffect := rfl

/-! ### modPoint -/

@[simp] theorem State.modPoint_ms (p : Nat) (f : Point → Point) : (s.modPoint p f).ms = s.ms := rfl
@[simp] theorem State.modPoint_hels (p : Nat) (f : Point → Point) : (s.modPoint p f).hels = s.hels := rfl
@[simp] theorem State.modPoint_zones (p : Nat) (f : Point → Point) : (s.modPoint p f).zones = s.zones := rfl
@[simp] theorem State.modPoint_segs (p : Nat) (f : Point → Point) : (s.modPoint p f).segs = s.segs := rfl
@[simp] theorem State.modPoint_sun (p : Nat) (f : Point → Point) : (s.modPoint p f).sun = s.sun := rfl
@[simp] theorem State.modPoint_snapshot (p : Nat) (f : Point → Point) : (s.modPoint p f).snapshot = s.snapshot := rfl
@[simp] theorem State.modPoint_sweep (p : Nat) (f : Point → Point) : (s.modPoint p f).sweep = s.sweep := rfl
@[simp] theorem State.modPoint_lastServed (p : Nat) (f : Point → Point) : (s.modPoint p f).lastServed = s.lastServed := rfl
@[simp] theorem State.modPoint_solveOut (p : Nat) (f : Point → Point) : (s.modPoint p f).solveOut = s.solveOut := rfl
@[simp] theorem State.modPoint_epoch (p : Nat) (f : Point → Point) : (s.modPoint p f).epoch = s.epoch := rfl
@[simp] theorem State.modPoint_rsg (p : Nat) (f : Point → Point) : (s.modPoint p f).rsg = s.rsg := rfl
@[simp] theorem State.modPoint_link (p : Nat) (f : Point → Point) : (s.modPoint p f).link = s.link := rfl
@[simp] theorem State.modPoint_scu (p : Nat) (f : Point → Point) : (s.modPoint p f).scu = s.scu := rfl
@[simp] theorem State.modPoint_pau (p : Nat) (f : Point → Point) : (s.modPoint p f).pau = s.pau := rfl
@[simp] theorem State.modPoint_dpt (p : Nat) (f : Point → Point) : (s.modPoint p f).dpt = s.dpt := rfl
@[simp] theorem State.modPoint_ppt (p : Nat) (f : Point → Point) : (s.modPoint p f).ppt = s.ppt := rfl
@[simp] theorem State.modPoint_form (p : Nat) (f : Point → Point) : (s.modPoint p f).form = s.form := rfl
@[simp] theorem State.modPoint_devents (p : Nat) (f : Point → Point) : (s.modPoint p f).devents = s.devents := rfl
@[simp] theorem State.modPoint_dmask (p : Nat) (f : Point → Point) : (s.modPoint p f).dmask = s.dmask := rfl
@[simp] theorem State.modPoint_pevents (p : Nat) (f : Point → Point) : (s.modPoint p f).pevents = s.pevents := rfl
@[simp] theorem State.modPoint_pmask (p : Nat) (f : Point → Point) : (s.modPoint p f).pmask = s.pmask := rfl
@[simp] theorem State.modPoint_pins (p : Nat) (f : Point → Point) : (s.modPoint p f).pins = s.pins := rfl
@[simp] theorem State.modPoint_draws (p : Nat) (f : Point → Point) : (s.modPoint p f).draws = s.draws := rfl
@[simp] theorem State.modPoint_pending (p : Nat) (f : Point → Point) : (s.modPoint p f).pending = s.pending := rfl
@[simp] theorem State.modPoint_hel (p : Nat) (f : Point → Point) (j : Nat) : (s.modPoint p f).hel j = s.hel j := rfl
@[simp] theorem State.modPoint_zone (p : Nat) (f : Point → Point) (j : Nat) : (s.modPoint p f).zone j = s.zone j := rfl
@[simp] theorem State.modPoint_seg (p : Nat) (f : Point → Point) (j : Nat) : (s.modPoint p f).seg j = s.seg j := rfl
@[simp] theorem State.modPoint_channel (p : Nat) (f : Point → Point) (j : Nat) : (s.modPoint p f).channel j = s.channel j := rfl
@[simp] theorem State.modPoint_shade (p : Nat) (f : Point → Point) (j : Nat) : (s.modPoint p f).shade j = s.shade j := rfl
@[simp] theorem State.modPoint_timer (p : Nat) (f : Point → Point) (j : Nat) : (s.modPoint p f).timer j = s.timer j := rfl
@[simp] theorem State.modPoint_present (p : Nat) (f : Point → Point) : (s.modPoint p f).present = s.present := rfl
@[simp] theorem State.modPoint_stowInEffect (p : Nat) (f : Point → Point) : (s.modPoint p f).stowInEffect = s.stowInEffect := rfl

/-! ### modZone -/

@[simp] theorem State.modZone_ms (z : Nat) (f : Zone → Zone) : (s.modZone z f).ms = s.ms := rfl
@[simp] theorem State.modZone_hels (z : Nat) (f : Zone → Zone) : (s.modZone z f).hels = s.hels := rfl
@[simp] theorem State.modZone_points (z : Nat) (f : Zone → Zone) : (s.modZone z f).points = s.points := rfl
@[simp] theorem State.modZone_segs (z : Nat) (f : Zone → Zone) : (s.modZone z f).segs = s.segs := rfl
@[simp] theorem State.modZone_sun (z : Nat) (f : Zone → Zone) : (s.modZone z f).sun = s.sun := rfl
@[simp] theorem State.modZone_snapshot (z : Nat) (f : Zone → Zone) : (s.modZone z f).snapshot = s.snapshot := rfl
@[simp] theorem State.modZone_sweep (z : Nat) (f : Zone → Zone) : (s.modZone z f).sweep = s.sweep := rfl
@[simp] theorem State.modZone_lastServed (z : Nat) (f : Zone → Zone) : (s.modZone z f).lastServed = s.lastServed := rfl
@[simp] theorem State.modZone_solveOut (z : Nat) (f : Zone → Zone) : (s.modZone z f).solveOut = s.solveOut := rfl
@[simp] theorem State.modZone_epoch (z : Nat) (f : Zone → Zone) : (s.modZone z f).epoch = s.epoch := rfl
@[simp] theorem State.modZone_rsg (z : Nat) (f : Zone → Zone) : (s.modZone z f).rsg = s.rsg := rfl
@[simp] theorem State.modZone_link (z : Nat) (f : Zone → Zone) : (s.modZone z f).link = s.link := rfl
@[simp] theorem State.modZone_scu (z : Nat) (f : Zone → Zone) : (s.modZone z f).scu = s.scu := rfl
@[simp] theorem State.modZone_pau (z : Nat) (f : Zone → Zone) : (s.modZone z f).pau = s.pau := rfl
@[simp] theorem State.modZone_dpt (z : Nat) (f : Zone → Zone) : (s.modZone z f).dpt = s.dpt := rfl
@[simp] theorem State.modZone_ppt (z : Nat) (f : Zone → Zone) : (s.modZone z f).ppt = s.ppt := rfl
@[simp] theorem State.modZone_form (z : Nat) (f : Zone → Zone) : (s.modZone z f).form = s.form := rfl
@[simp] theorem State.modZone_devents (z : Nat) (f : Zone → Zone) : (s.modZone z f).devents = s.devents := rfl
@[simp] theorem State.modZone_dmask (z : Nat) (f : Zone → Zone) : (s.modZone z f).dmask = s.dmask := rfl
@[simp] theorem State.modZone_pevents (z : Nat) (f : Zone → Zone) : (s.modZone z f).pevents = s.pevents := rfl
@[simp] theorem State.modZone_pmask (z : Nat) (f : Zone → Zone) : (s.modZone z f).pmask = s.pmask := rfl
@[simp] theorem State.modZone_pins (z : Nat) (f : Zone → Zone) : (s.modZone z f).pins = s.pins := rfl
@[simp] theorem State.modZone_draws (z : Nat) (f : Zone → Zone) : (s.modZone z f).draws = s.draws := rfl
@[simp] theorem State.modZone_pending (z : Nat) (f : Zone → Zone) : (s.modZone z f).pending = s.pending := rfl
@[simp] theorem State.modZone_hel (z : Nat) (f : Zone → Zone) (j : Nat) : (s.modZone z f).hel j = s.hel j := rfl
@[simp] theorem State.modZone_point (z : Nat) (f : Zone → Zone) (j : Nat) : (s.modZone z f).point j = s.point j := rfl
@[simp] theorem State.modZone_seg (z : Nat) (f : Zone → Zone) (j : Nat) : (s.modZone z f).seg j = s.seg j := rfl
@[simp] theorem State.modZone_channel (z : Nat) (f : Zone → Zone) (j : Nat) : (s.modZone z f).channel j = s.channel j := rfl
@[simp] theorem State.modZone_shade (z : Nat) (f : Zone → Zone) (j : Nat) : (s.modZone z f).shade j = s.shade j := rfl
@[simp] theorem State.modZone_timer (z : Nat) (f : Zone → Zone) (j : Nat) : (s.modZone z f).timer j = s.timer j := rfl
@[simp] theorem State.modZone_present (z : Nat) (f : Zone → Zone) : (s.modZone z f).present = s.present := rfl
@[simp] theorem State.modZone_stowInEffect (z : Nat) (f : Zone → Zone) : (s.modZone z f).stowInEffect = s.stowInEffect := rfl

/-! ### modSeg -/

@[simp] theorem State.modSeg_ms (k : Nat) (f : Seg → Seg) : (s.modSeg k f).ms = s.ms := rfl
@[simp] theorem State.modSeg_hels (k : Nat) (f : Seg → Seg) : (s.modSeg k f).hels = s.hels := rfl
@[simp] theorem State.modSeg_points (k : Nat) (f : Seg → Seg) : (s.modSeg k f).points = s.points := rfl
@[simp] theorem State.modSeg_zones (k : Nat) (f : Seg → Seg) : (s.modSeg k f).zones = s.zones := rfl
@[simp] theorem State.modSeg_sun (k : Nat) (f : Seg → Seg) : (s.modSeg k f).sun = s.sun := rfl
@[simp] theorem State.modSeg_snapshot (k : Nat) (f : Seg → Seg) : (s.modSeg k f).snapshot = s.snapshot := rfl
@[simp] theorem State.modSeg_sweep (k : Nat) (f : Seg → Seg) : (s.modSeg k f).sweep = s.sweep := rfl
@[simp] theorem State.modSeg_lastServed (k : Nat) (f : Seg → Seg) : (s.modSeg k f).lastServed = s.lastServed := rfl
@[simp] theorem State.modSeg_solveOut (k : Nat) (f : Seg → Seg) : (s.modSeg k f).solveOut = s.solveOut := rfl
@[simp] theorem State.modSeg_epoch (k : Nat) (f : Seg → Seg) : (s.modSeg k f).epoch = s.epoch := rfl
@[simp] theorem State.modSeg_rsg (k : Nat) (f : Seg → Seg) : (s.modSeg k f).rsg = s.rsg := rfl
@[simp] theorem State.modSeg_link (k : Nat) (f : Seg → Seg) : (s.modSeg k f).link = s.link := rfl
@[simp] theorem State.modSeg_scu (k : Nat) (f : Seg → Seg) : (s.modSeg k f).scu = s.scu := rfl
@[simp] theorem State.modSeg_pau (k : Nat) (f : Seg → Seg) : (s.modSeg k f).pau = s.pau := rfl
@[simp] theorem State.modSeg_dpt (k : Nat) (f : Seg → Seg) : (s.modSeg k f).dpt = s.dpt := rfl
@[simp] theorem State.modSeg_ppt (k : Nat) (f : Seg → Seg) : (s.modSeg k f).ppt = s.ppt := rfl
@[simp] theorem State.modSeg_form (k : Nat) (f : Seg → Seg) : (s.modSeg k f).form = s.form := rfl
@[simp] theorem State.modSeg_devents (k : Nat) (f : Seg → Seg) : (s.modSeg k f).devents = s.devents := rfl
@[simp] theorem State.modSeg_dmask (k : Nat) (f : Seg → Seg) : (s.modSeg k f).dmask = s.dmask := rfl
@[simp] theorem State.modSeg_pevents (k : Nat) (f : Seg → Seg) : (s.modSeg k f).pevents = s.pevents := rfl
@[simp] theorem State.modSeg_pmask (k : Nat) (f : Seg → Seg) : (s.modSeg k f).pmask = s.pmask := rfl
@[simp] theorem State.modSeg_pins (k : Nat) (f : Seg → Seg) : (s.modSeg k f).pins = s.pins := rfl
@[simp] theorem State.modSeg_draws (k : Nat) (f : Seg → Seg) : (s.modSeg k f).draws = s.draws := rfl
@[simp] theorem State.modSeg_pending (k : Nat) (f : Seg → Seg) : (s.modSeg k f).pending = s.pending := rfl
@[simp] theorem State.modSeg_hel (k : Nat) (f : Seg → Seg) (j : Nat) : (s.modSeg k f).hel j = s.hel j := rfl
@[simp] theorem State.modSeg_point (k : Nat) (f : Seg → Seg) (j : Nat) : (s.modSeg k f).point j = s.point j := rfl
@[simp] theorem State.modSeg_zone (k : Nat) (f : Seg → Seg) (j : Nat) : (s.modSeg k f).zone j = s.zone j := rfl
@[simp] theorem State.modSeg_channel (k : Nat) (f : Seg → Seg) (j : Nat) : (s.modSeg k f).channel j = s.channel j := rfl
@[simp] theorem State.modSeg_shade (k : Nat) (f : Seg → Seg) (j : Nat) : (s.modSeg k f).shade j = s.shade j := rfl
@[simp] theorem State.modSeg_timer (k : Nat) (f : Seg → Seg) (j : Nat) : (s.modSeg k f).timer j = s.timer j := rfl
@[simp] theorem State.modSeg_present (k : Nat) (f : Seg → Seg) : (s.modSeg k f).present = s.present := rfl
@[simp] theorem State.modSeg_stowInEffect (k : Nat) (f : Seg → Seg) : (s.modSeg k f).stowInEffect = s.stowInEffect := rfl

/-! ### modSegs -/

@[simp] theorem State.modSegs_ms (f : Seg → Seg) : (s.modSegs f).ms = s.ms := rfl
@[simp] theorem State.modSegs_hels (f : Seg → Seg) : (s.modSegs f).hels = s.hels := rfl
@[simp] theorem State.modSegs_points (f : Seg → Seg) : (s.modSegs f).points = s.points := rfl
@[simp] theorem State.modSegs_zones (f : Seg → Seg) : (s.modSegs f).zones = s.zones := rfl
@[simp] theorem State.modSegs_sun (f : Seg → Seg) : (s.modSegs f).sun = s.sun := rfl
@[simp] theorem State.modSegs_snapshot (f : Seg → Seg) : (s.modSegs f).snapshot = s.snapshot := rfl
@[simp] theorem State.modSegs_sweep (f : Seg → Seg) : (s.modSegs f).sweep = s.sweep := rfl
@[simp] theorem State.modSegs_lastServed (f : Seg → Seg) : (s.modSegs f).lastServed = s.lastServed := rfl
@[simp] theorem State.modSegs_solveOut (f : Seg → Seg) : (s.modSegs f).solveOut = s.solveOut := rfl
@[simp] theorem State.modSegs_epoch (f : Seg → Seg) : (s.modSegs f).epoch = s.epoch := rfl
@[simp] theorem State.modSegs_rsg (f : Seg → Seg) : (s.modSegs f).rsg = s.rsg := rfl
@[simp] theorem State.modSegs_link (f : Seg → Seg) : (s.modSegs f).link = s.link := rfl
@[simp] theorem State.modSegs_scu (f : Seg → Seg) : (s.modSegs f).scu = s.scu := rfl
@[simp] theorem State.modSegs_pau (f : Seg → Seg) : (s.modSegs f).pau = s.pau := rfl
@[simp] theorem State.modSegs_dpt (f : Seg → Seg) : (s.modSegs f).dpt = s.dpt := rfl
@[simp] theorem State.modSegs_ppt (f : Seg → Seg) : (s.modSegs f).ppt = s.ppt := rfl
@[simp] theorem State.modSegs_form (f : Seg → Seg) : (s.modSegs f).form = s.form := rfl
@[simp] theorem State.modSegs_devents (f : Seg → Seg) : (s.modSegs f).devents = s.devents := rfl
@[simp] theorem State.modSegs_dmask (f : Seg → Seg) : (s.modSegs f).dmask = s.dmask := rfl
@[simp] theorem State.modSegs_pevents (f : Seg → Seg) : (s.modSegs f).pevents = s.pevents := rfl
@[simp] theorem State.modSegs_pmask (f : Seg → Seg) : (s.modSegs f).pmask = s.pmask := rfl
@[simp] theorem State.modSegs_pins (f : Seg → Seg) : (s.modSegs f).pins = s.pins := rfl
@[simp] theorem State.modSegs_draws (f : Seg → Seg) : (s.modSegs f).draws = s.draws := rfl
@[simp] theorem State.modSegs_pending (f : Seg → Seg) : (s.modSegs f).pending = s.pending := rfl
@[simp] theorem State.modSegs_hel (f : Seg → Seg) (j : Nat) : (s.modSegs f).hel j = s.hel j := rfl
@[simp] theorem State.modSegs_point (f : Seg → Seg) (j : Nat) : (s.modSegs f).point j = s.point j := rfl
@[simp] theorem State.modSegs_zone (f : Seg → Seg) (j : Nat) : (s.modSegs f).zone j = s.zone j := rfl
@[simp] theorem State.modSegs_channel (f : Seg → Seg) (j : Nat) : (s.modSegs f).channel j = s.channel j := rfl
@[simp] theorem State.modSegs_shade (f : Seg → Seg) (j : Nat) : (s.modSegs f).shade j = s.shade j := rfl
@[simp] theorem State.modSegs_timer (f : Seg → Seg) (j : Nat) : (s.modSegs f).timer j = s.timer j := rfl
@[simp] theorem State.modSegs_present (f : Seg → Seg) : (s.modSegs f).present = s.present := rfl
@[simp] theorem State.modSegs_stowInEffect (f : Seg → Seg) : (s.modSegs f).stowInEffect = s.stowInEffect := rfl

/-! ### modChannel -/

@[simp] theorem State.modChannel_ms (k : Nat) (f : Channel → Channel) : (s.modChannel k f).ms = s.ms := rfl
@[simp] theorem State.modChannel_hels (k : Nat) (f : Channel → Channel) : (s.modChannel k f).hels = s.hels := rfl
@[simp] theorem State.modChannel_points (k : Nat) (f : Channel → Channel) : (s.modChannel k f).points = s.points := rfl
@[simp] theorem State.modChannel_zones (k : Nat) (f : Channel → Channel) : (s.modChannel k f).zones = s.zones := rfl
@[simp] theorem State.modChannel_segs (k : Nat) (f : Channel → Channel) : (s.modChannel k f).segs = s.segs := rfl
@[simp] theorem State.modChannel_sun (k : Nat) (f : Channel → Channel) : (s.modChannel k f).sun = s.sun := rfl
@[simp] theorem State.modChannel_snapshot (k : Nat) (f : Channel → Channel) : (s.modChannel k f).snapshot = s.snapshot := rfl
@[simp] theorem State.modChannel_sweep (k : Nat) (f : Channel → Channel) : (s.modChannel k f).sweep = s.sweep := rfl
@[simp] theorem State.modChannel_lastServed (k : Nat) (f : Channel → Channel) : (s.modChannel k f).lastServed = s.lastServed := rfl
@[simp] theorem State.modChannel_solveOut (k : Nat) (f : Channel → Channel) : (s.modChannel k f).solveOut = s.solveOut := rfl
@[simp] theorem State.modChannel_epoch (k : Nat) (f : Channel → Channel) : (s.modChannel k f).epoch = s.epoch := rfl
@[simp] theorem State.modChannel_rsg (k : Nat) (f : Channel → Channel) : (s.modChannel k f).rsg = s.rsg := rfl
@[simp] theorem State.modChannel_link (k : Nat) (f : Channel → Channel) : (s.modChannel k f).link = s.link := rfl
@[simp] theorem State.modChannel_pau (k : Nat) (f : Channel → Channel) : (s.modChannel k f).pau = s.pau := rfl
@[simp] theorem State.modChannel_dpt (k : Nat) (f : Channel → Channel) : (s.modChannel k f).dpt = s.dpt := rfl
@[simp] theorem State.modChannel_ppt (k : Nat) (f : Channel → Channel) : (s.modChannel k f).ppt = s.ppt := rfl
@[simp] theorem State.modChannel_form (k : Nat) (f : Channel → Channel) : (s.modChannel k f).form = s.form := rfl
@[simp] theorem State.modChannel_devents (k : Nat) (f : Channel → Channel) : (s.modChannel k f).devents = s.devents := rfl
@[simp] theorem State.modChannel_dmask (k : Nat) (f : Channel → Channel) : (s.modChannel k f).dmask = s.dmask := rfl
@[simp] theorem State.modChannel_pevents (k : Nat) (f : Channel → Channel) : (s.modChannel k f).pevents = s.pevents := rfl
@[simp] theorem State.modChannel_pmask (k : Nat) (f : Channel → Channel) : (s.modChannel k f).pmask = s.pmask := rfl
@[simp] theorem State.modChannel_pins (k : Nat) (f : Channel → Channel) : (s.modChannel k f).pins = s.pins := rfl
@[simp] theorem State.modChannel_draws (k : Nat) (f : Channel → Channel) : (s.modChannel k f).draws = s.draws := rfl
@[simp] theorem State.modChannel_pending (k : Nat) (f : Channel → Channel) : (s.modChannel k f).pending = s.pending := rfl
@[simp] theorem State.modChannel_hel (k : Nat) (f : Channel → Channel) (j : Nat) : (s.modChannel k f).hel j = s.hel j := rfl
@[simp] theorem State.modChannel_point (k : Nat) (f : Channel → Channel) (j : Nat) : (s.modChannel k f).point j = s.point j := rfl
@[simp] theorem State.modChannel_zone (k : Nat) (f : Channel → Channel) (j : Nat) : (s.modChannel k f).zone j = s.zone j := rfl
@[simp] theorem State.modChannel_seg (k : Nat) (f : Channel → Channel) (j : Nat) : (s.modChannel k f).seg j = s.seg j := rfl
@[simp] theorem State.modChannel_timer (k : Nat) (f : Channel → Channel) (j : Nat) : (s.modChannel k f).timer j = s.timer j := rfl
@[simp] theorem State.modChannel_present (k : Nat) (f : Channel → Channel) : (s.modChannel k f).present = s.present := rfl
@[simp] theorem State.modChannel_stowInEffect (k : Nat) (f : Channel → Channel) : (s.modChannel k f).stowInEffect = s.stowInEffect := rfl

/-! ### modShade -/

@[simp] theorem State.modShade_ms (k : Nat) (f : SegShade → SegShade) : (s.modShade k f).ms = s.ms := rfl
@[simp] theorem State.modShade_hels (k : Nat) (f : SegShade → SegShade) : (s.modShade k f).hels = s.hels := rfl
@[simp] theorem State.modShade_points (k : Nat) (f : SegShade → SegShade) : (s.modShade k f).points = s.points := rfl
@[simp] theorem State.modShade_zones (k : Nat) (f : SegShade → SegShade) : (s.modShade k f).zones = s.zones := rfl
@[simp] theorem State.modShade_segs (k : Nat) (f : SegShade → SegShade) : (s.modShade k f).segs = s.segs := rfl
@[simp] theorem State.modShade_sun (k : Nat) (f : SegShade → SegShade) : (s.modShade k f).sun = s.sun := rfl
@[simp] theorem State.modShade_snapshot (k : Nat) (f : SegShade → SegShade) : (s.modShade k f).snapshot = s.snapshot := rfl
@[simp] theorem State.modShade_sweep (k : Nat) (f : SegShade → SegShade) : (s.modShade k f).sweep = s.sweep := rfl
@[simp] theorem State.modShade_lastServed (k : Nat) (f : SegShade → SegShade) : (s.modShade k f).lastServed = s.lastServed := rfl
@[simp] theorem State.modShade_solveOut (k : Nat) (f : SegShade → SegShade) : (s.modShade k f).solveOut = s.solveOut := rfl
@[simp] theorem State.modShade_epoch (k : Nat) (f : SegShade → SegShade) : (s.modShade k f).epoch = s.epoch := rfl
@[simp] theorem State.modShade_rsg (k : Nat) (f : SegShade → SegShade) : (s.modShade k f).rsg = s.rsg := rfl
@[simp] theorem State.modShade_link (k : Nat) (f : SegShade → SegShade) : (s.modShade k f).link = s.link := rfl
@[simp] theorem State.modShade_pau (k : Nat) (f : SegShade → SegShade) : (s.modShade k f).pau = s.pau := rfl
@[simp] theorem State.modShade_dpt (k : Nat) (f : SegShade → SegShade) : (s.modShade k f).dpt = s.dpt := rfl
@[simp] theorem State.modShade_ppt (k : Nat) (f : SegShade → SegShade) : (s.modShade k f).ppt = s.ppt := rfl
@[simp] theorem State.modShade_form (k : Nat) (f : SegShade → SegShade) : (s.modShade k f).form = s.form := rfl
@[simp] theorem State.modShade_devents (k : Nat) (f : SegShade → SegShade) : (s.modShade k f).devents = s.devents := rfl
@[simp] theorem State.modShade_dmask (k : Nat) (f : SegShade → SegShade) : (s.modShade k f).dmask = s.dmask := rfl
@[simp] theorem State.modShade_pevents (k : Nat) (f : SegShade → SegShade) : (s.modShade k f).pevents = s.pevents := rfl
@[simp] theorem State.modShade_pmask (k : Nat) (f : SegShade → SegShade) : (s.modShade k f).pmask = s.pmask := rfl
@[simp] theorem State.modShade_pins (k : Nat) (f : SegShade → SegShade) : (s.modShade k f).pins = s.pins := rfl
@[simp] theorem State.modShade_draws (k : Nat) (f : SegShade → SegShade) : (s.modShade k f).draws = s.draws := rfl
@[simp] theorem State.modShade_pending (k : Nat) (f : SegShade → SegShade) : (s.modShade k f).pending = s.pending := rfl
@[simp] theorem State.modShade_hel (k : Nat) (f : SegShade → SegShade) (j : Nat) : (s.modShade k f).hel j = s.hel j := rfl
@[simp] theorem State.modShade_point (k : Nat) (f : SegShade → SegShade) (j : Nat) : (s.modShade k f).point j = s.point j := rfl
@[simp] theorem State.modShade_zone (k : Nat) (f : SegShade → SegShade) (j : Nat) : (s.modShade k f).zone j = s.zone j := rfl
@[simp] theorem State.modShade_seg (k : Nat) (f : SegShade → SegShade) (j : Nat) : (s.modShade k f).seg j = s.seg j := rfl
@[simp] theorem State.modShade_timer (k : Nat) (f : SegShade → SegShade) (j : Nat) : (s.modShade k f).timer j = s.timer j := rfl
@[simp] theorem State.modShade_present (k : Nat) (f : SegShade → SegShade) : (s.modShade k f).present = s.present := rfl
@[simp] theorem State.modShade_stowInEffect (k : Nat) (f : SegShade → SegShade) : (s.modShade k f).stowInEffect = s.stowInEffect := rfl

/-! ### setTimer -/

@[simp] theorem State.setTimer_ms (k : Nat) (t : Option Nat) : (s.setTimer k t).ms = s.ms := rfl
@[simp] theorem State.setTimer_hels (k : Nat) (t : Option Nat) : (s.setTimer k t).hels = s.hels := rfl
@[simp] theorem State.setTimer_points (k : Nat) (t : Option Nat) : (s.setTimer k t).points = s.points := rfl
@[simp] theorem State.setTimer_zones (k : Nat) (t : Option Nat) : (s.setTimer k t).zones = s.zones := rfl
@[simp] theorem State.setTimer_segs (k : Nat) (t : Option Nat) : (s.setTimer k t).segs = s.segs := rfl
@[simp] theorem State.setTimer_sun (k : Nat) (t : Option Nat) : (s.setTimer k t).sun = s.sun := rfl
@[simp] theorem State.setTimer_snapshot (k : Nat) (t : Option Nat) : (s.setTimer k t).snapshot = s.snapshot := rfl
@[simp] theorem State.setTimer_sweep (k : Nat) (t : Option Nat) : (s.setTimer k t).sweep = s.sweep := rfl
@[simp] theorem State.setTimer_lastServed (k : Nat) (t : Option Nat) : (s.setTimer k t).lastServed = s.lastServed := rfl
@[simp] theorem State.setTimer_solveOut (k : Nat) (t : Option Nat) : (s.setTimer k t).solveOut = s.solveOut := rfl
@[simp] theorem State.setTimer_epoch (k : Nat) (t : Option Nat) : (s.setTimer k t).epoch = s.epoch := rfl
@[simp] theorem State.setTimer_link (k : Nat) (t : Option Nat) : (s.setTimer k t).link = s.link := rfl
@[simp] theorem State.setTimer_scu (k : Nat) (t : Option Nat) : (s.setTimer k t).scu = s.scu := rfl
@[simp] theorem State.setTimer_pau (k : Nat) (t : Option Nat) : (s.setTimer k t).pau = s.pau := rfl
@[simp] theorem State.setTimer_dpt (k : Nat) (t : Option Nat) : (s.setTimer k t).dpt = s.dpt := rfl
@[simp] theorem State.setTimer_ppt (k : Nat) (t : Option Nat) : (s.setTimer k t).ppt = s.ppt := rfl
@[simp] theorem State.setTimer_form (k : Nat) (t : Option Nat) : (s.setTimer k t).form = s.form := rfl
@[simp] theorem State.setTimer_devents (k : Nat) (t : Option Nat) : (s.setTimer k t).devents = s.devents := rfl
@[simp] theorem State.setTimer_dmask (k : Nat) (t : Option Nat) : (s.setTimer k t).dmask = s.dmask := rfl
@[simp] theorem State.setTimer_pevents (k : Nat) (t : Option Nat) : (s.setTimer k t).pevents = s.pevents := rfl
@[simp] theorem State.setTimer_pmask (k : Nat) (t : Option Nat) : (s.setTimer k t).pmask = s.pmask := rfl
@[simp] theorem State.setTimer_pins (k : Nat) (t : Option Nat) : (s.setTimer k t).pins = s.pins := rfl
@[simp] theorem State.setTimer_draws (k : Nat) (t : Option Nat) : (s.setTimer k t).draws = s.draws := rfl
@[simp] theorem State.setTimer_pending (k : Nat) (t : Option Nat) : (s.setTimer k t).pending = s.pending := rfl
@[simp] theorem State.setTimer_hel (k : Nat) (t : Option Nat) (j : Nat) : (s.setTimer k t).hel j = s.hel j := rfl
@[simp] theorem State.setTimer_point (k : Nat) (t : Option Nat) (j : Nat) : (s.setTimer k t).point j = s.point j := rfl
@[simp] theorem State.setTimer_zone (k : Nat) (t : Option Nat) (j : Nat) : (s.setTimer k t).zone j = s.zone j := rfl
@[simp] theorem State.setTimer_seg (k : Nat) (t : Option Nat) (j : Nat) : (s.setTimer k t).seg j = s.seg j := rfl
@[simp] theorem State.setTimer_channel (k : Nat) (t : Option Nat) (j : Nat) : (s.setTimer k t).channel j = s.channel j := rfl
@[simp] theorem State.setTimer_shade (k : Nat) (t : Option Nat) (j : Nat) : (s.setTimer k t).shade j = s.shade j := rfl
@[simp] theorem State.setTimer_present (k : Nat) (t : Option Nat) : (s.setTimer k t).present = s.present := rfl
@[simp] theorem State.setTimer_stowInEffect (k : Nat) (t : Option Nat) : (s.setTimer k t).stowInEffect = s.stowInEffect := rfl

/-! ### raiseD -/

@[simp] theorem State.raiseD_ms (e : DEvent) : (s.raiseD e).ms = s.ms := rfl
@[simp] theorem State.raiseD_hels (e : DEvent) : (s.raiseD e).hels = s.hels := rfl
@[simp] theorem State.raiseD_points (e : DEvent) : (s.raiseD e).points = s.points := rfl
@[simp] theorem State.raiseD_zones (e : DEvent) : (s.raiseD e).zones = s.zones := rfl
@[simp] theorem State.raiseD_segs (e : DEvent) : (s.raiseD e).segs = s.segs := rfl
@[simp] theorem State.raiseD_sun (e : DEvent) : (s.raiseD e).sun = s.sun := rfl
@[simp] theorem State.raiseD_snapshot (e : DEvent) : (s.raiseD e).snapshot = s.snapshot := rfl
@[simp] theorem State.raiseD_sweep (e : DEvent) : (s.raiseD e).sweep = s.sweep := rfl
@[simp] theorem State.raiseD_lastServed (e : DEvent) : (s.raiseD e).lastServed = s.lastServed := rfl
@[simp] theorem State.raiseD_solveOut (e : DEvent) : (s.raiseD e).solveOut = s.solveOut := rfl
@[simp] theorem State.raiseD_epoch (e : DEvent) : (s.raiseD e).epoch = s.epoch := rfl
@[simp] theorem State.raiseD_rsg (e : DEvent) : (s.raiseD e).rsg = s.rsg := rfl
@[simp] theorem State.raiseD_link (e : DEvent) : (s.raiseD e).link = s.link := rfl
@[simp] theorem State.raiseD_scu (e : DEvent) : (s.raiseD e).scu = s.scu := rfl
@[simp] theorem State.raiseD_pau (e : DEvent) : (s.raiseD e).pau = s.pau := rfl
@[simp] theorem State.raiseD_dpt (e : DEvent) : (s.raiseD e).dpt = s.dpt := rfl
@[simp] theorem State.raiseD_ppt (e : DEvent) : (s.raiseD e).ppt = s.ppt := rfl
@[simp] theorem State.raiseD_form (e : DEvent) : (s.raiseD e).form = s.form := rfl
@[simp] theorem State.raiseD_dmask (e : DEvent) : (s.raiseD e).dmask = s.dmask := rfl
@[simp] theorem State.raiseD_pevents (e : DEvent) : (s.raiseD e).pevents = s.pevents := rfl
@[simp] theorem State.raiseD_pmask (e : DEvent) : (s.raiseD e).pmask = s.pmask := rfl
@[simp] theorem State.raiseD_pins (e : DEvent) : (s.raiseD e).pins = s.pins := rfl
@[simp] theorem State.raiseD_draws (e : DEvent) : (s.raiseD e).draws = s.draws := rfl
@[simp] theorem State.raiseD_pending (e : DEvent) : (s.raiseD e).pending = s.pending := rfl
@[simp] theorem State.raiseD_hel (e : DEvent) (j : Nat) : (s.raiseD e).hel j = s.hel j := rfl
@[simp] theorem State.raiseD_point (e : DEvent) (j : Nat) : (s.raiseD e).point j = s.point j := rfl
@[simp] theorem State.raiseD_zone (e : DEvent) (j : Nat) : (s.raiseD e).zone j = s.zone j := rfl
@[simp] theorem State.raiseD_seg (e : DEvent) (j : Nat) : (s.raiseD e).seg j = s.seg j := rfl
@[simp] theorem State.raiseD_channel (e : DEvent) (j : Nat) : (s.raiseD e).channel j = s.channel j := rfl
@[simp] theorem State.raiseD_shade (e : DEvent) (j : Nat) : (s.raiseD e).shade j = s.shade j := rfl
@[simp] theorem State.raiseD_timer (e : DEvent) (j : Nat) : (s.raiseD e).timer j = s.timer j := rfl
@[simp] theorem State.raiseD_present (e : DEvent) : (s.raiseD e).present = s.present := rfl
@[simp] theorem State.raiseD_stowInEffect (e : DEvent) : (s.raiseD e).stowInEffect = s.stowInEffect := rfl

/-! ### raiseP -/

@[simp] theorem State.raiseP_ms (e : PEvent) : (s.raiseP e).ms = s.ms := rfl
@[simp] theorem State.raiseP_hels (e : PEvent) : (s.raiseP e).hels = s.hels := rfl
@[simp] theorem State.raiseP_points (e : PEvent) : (s.raiseP e).points = s.points := rfl
@[simp] theorem State.raiseP_zones (e : PEvent) : (s.raiseP e).zones = s.zones := rfl
@[simp] theorem State.raiseP_segs (e : PEvent) : (s.raiseP e).segs = s.segs := rfl
@[simp] theorem State.raiseP_sun (e : PEvent) : (s.raiseP e).sun = s.sun := rfl
@[simp] theorem State.raiseP_snapshot (e : PEvent) : (s.raiseP e).snapshot = s.snapshot := rfl
@[simp] theorem State.raiseP_sweep (e : PEvent) : (s.raiseP e).sweep = s.sweep := rfl
@[simp] theorem State.raiseP_lastServed (e : PEvent) : (s.raiseP e).lastServed = s.lastServed := rfl
@[simp] theorem State.raiseP_solveOut (e : PEvent) : (s.raiseP e).solveOut = s.solveOut := rfl
@[simp] theorem State.raiseP_epoch (e : PEvent) : (s.raiseP e).epoch = s.epoch := rfl
@[simp] theorem State.raiseP_rsg (e : PEvent) : (s.raiseP e).rsg = s.rsg := rfl
@[simp] theorem State.raiseP_link (e : PEvent) : (s.raiseP e).link = s.link := rfl
@[simp] theorem State.raiseP_scu (e : PEvent) : (s.raiseP e).scu = s.scu := rfl
@[simp] theorem State.raiseP_pau (e : PEvent) : (s.raiseP e).pau = s.pau := rfl
@[simp] theorem State.raiseP_dpt (e : PEvent) : (s.raiseP e).dpt = s.dpt := rfl
@[simp] theorem State.raiseP_ppt (e : PEvent) : (s.raiseP e).ppt = s.ppt := rfl
@[simp] theorem State.raiseP_form (e : PEvent) : (s.raiseP e).form = s.form := rfl
@[simp] theorem State.raiseP_devents (e : PEvent) : (s.raiseP e).devents = s.devents := rfl
@[simp] theorem State.raiseP_dmask (e : PEvent) : (s.raiseP e).dmask = s.dmask := rfl
@[simp] theorem State.raiseP_pmask (e : PEvent) : (s.raiseP e).pmask = s.pmask := rfl
@[simp] theorem State.raiseP_pins (e : PEvent) : (s.raiseP e).pins = s.pins := rfl
@[simp] theorem State.raiseP_draws (e : PEvent) : (s.raiseP e).draws = s.draws := rfl
@[simp] theorem State.raiseP_pending (e : PEvent) : (s.raiseP e).pending = s.pending := rfl
@[simp] theorem State.raiseP_hel (e : PEvent) (j : Nat) : (s.raiseP e).hel j = s.hel j := rfl
@[simp] theorem State.raiseP_point (e : PEvent) (j : Nat) : (s.raiseP e).point j = s.point j := rfl
@[simp] theorem State.raiseP_zone (e : PEvent) (j : Nat) : (s.raiseP e).zone j = s.zone j := rfl
@[simp] theorem State.raiseP_seg (e : PEvent) (j : Nat) : (s.raiseP e).seg j = s.seg j := rfl
@[simp] theorem State.raiseP_channel (e : PEvent) (j : Nat) : (s.raiseP e).channel j = s.channel j := rfl
@[simp] theorem State.raiseP_shade (e : PEvent) (j : Nat) : (s.raiseP e).shade j = s.shade j := rfl
@[simp] theorem State.raiseP_timer (e : PEvent) (j : Nat) : (s.raiseP e).timer j = s.timer j := rfl
@[simp] theorem State.raiseP_present (e : PEvent) : (s.raiseP e).present = s.present := rfl
@[simp] theorem State.raiseP_stowInEffect (e : PEvent) : (s.raiseP e).stowInEffect = s.stowInEffect := rfl

/-! ### raiseBoth -/

@[simp] theorem State.raiseBoth_ms (d : DEvent) (p : PEvent) : (s.raiseBoth d p).ms = s.ms := rfl
@[simp] theorem State.raiseBoth_hels (d : DEvent) (p : PEvent) : (s.raiseBoth d p).hels = s.hels := rfl
@[simp] theorem State.raiseBoth_points (d : DEvent) (p : PEvent) : (s.raiseBoth d p).points = s.points := rfl
@[simp] theorem State.raiseBoth_zones (d : DEvent) (p : PEvent) : (s.raiseBoth d p).zones = s.zones := rfl
@[simp] theorem State.raiseBoth_segs (d : DEvent) (p : PEvent) : (s.raiseBoth d p).segs = s.segs := rfl
@[simp] theorem State.raiseBoth_sun (d : DEvent) (p : PEvent) : (s.raiseBoth d p).sun = s.sun := rfl
@[simp] theorem State.raiseBoth_snapshot (d : DEvent) (p : PEvent) : (s.raiseBoth d p).snapshot = s.snapshot := rfl
@[simp] theorem State.raiseBoth_sweep (d : DEvent) (p : PEvent) : (s.raiseBoth d p).sweep = s.sweep := rfl
@[simp] theorem State.raiseBoth_lastServed (d : DEvent) (p : PEvent) : (s.raiseBoth d p).lastServed = s.lastServed := rfl
@[simp] theorem State.raiseBoth_solveOut (d : DEvent) (p : PEvent) : (s.raiseBoth d p).solveOut = s.solveOut := rfl
@[simp] theorem State.raiseBoth_epoch (d : DEvent) (p : PEvent) : (s.raiseBoth d p).epoch = s.epoch := rfl
@[simp] theorem State.raiseBoth_rsg (d : DEvent) (p : PEvent) : (s.raiseBoth d p).rsg = s.rsg := rfl
@[simp] theorem State.raiseBoth_link (d : DEvent) (p : PEvent) : (s.raiseBoth d p).link = s.link := rfl
@[simp] theorem State.raiseBoth_scu (d : DEvent) (p : PEvent) : (s.raiseBoth d p).scu = s.scu := rfl
@[simp] theorem State.raiseBoth_pau (d : DEvent) (p : PEvent) : (s.raiseBoth d p).pau = s.pau := rfl
@[simp] theorem State.raiseBoth_dpt (d : DEvent) (p : PEvent) : (s.raiseBoth d p).dpt = s.dpt := rfl
@[simp] theorem State.raiseBoth_ppt (d : DEvent) (p : PEvent) : (s.raiseBoth d p).ppt = s.ppt := rfl
@[simp] theorem State.raiseBoth_form (d : DEvent) (p : PEvent) : (s.raiseBoth d p).form = s.form := rfl
@[simp] theorem State.raiseBoth_dmask (d : DEvent) (p : PEvent) : (s.raiseBoth d p).dmask = s.dmask := rfl
@[simp] theorem State.raiseBoth_pmask (d : DEvent) (p : PEvent) : (s.raiseBoth d p).pmask = s.pmask := rfl
@[simp] theorem State.raiseBoth_pins (d : DEvent) (p : PEvent) : (s.raiseBoth d p).pins = s.pins := rfl
@[simp] theorem State.raiseBoth_draws (d : DEvent) (p : PEvent) : (s.raiseBoth d p).draws = s.draws := rfl
@[simp] theorem State.raiseBoth_pending (d : DEvent) (p : PEvent) : (s.raiseBoth d p).pending = s.pending := rfl
@[simp] theorem State.raiseBoth_hel (d : DEvent) (p : PEvent) (j : Nat) : (s.raiseBoth d p).hel j = s.hel j := rfl
@[simp] theorem State.raiseBoth_point (d : DEvent) (p : PEvent) (j : Nat) : (s.raiseBoth d p).point j = s.point j := rfl
@[simp] theorem State.raiseBoth_zone (d : DEvent) (p : PEvent) (j : Nat) : (s.raiseBoth d p).zone j = s.zone j := rfl
@[simp] theorem State.raiseBoth_seg (d : DEvent) (p : PEvent) (j : Nat) : (s.raiseBoth d p).seg j = s.seg j := rfl
@[simp] theorem State.raiseBoth_channel (d : DEvent) (p : PEvent) (j : Nat) : (s.raiseBoth d p).channel j = s.channel j := rfl
@[simp] theorem State.raiseBoth_shade (d : DEvent) (p : PEvent) (j : Nat) : (s.raiseBoth d p).shade j = s.shade j := rfl
@[simp] theorem State.raiseBoth_timer (d : DEvent) (p : PEvent) (j : Nat) : (s.raiseBoth d p).timer j = s.timer j := rfl
@[simp] theorem State.raiseBoth_present (d : DEvent) (p : PEvent) : (s.raiseBoth d p).present = s.present := rfl
@[simp] theorem State.raiseBoth_stowInEffect (d : DEvent) (p : PEvent) : (s.raiseBoth d p).stowInEffect = s.stowInEffect := rfl

/-! ### setTxn -/

@[simp] theorem State.setTxn_ms (p : Port) (t : Txn) : (s.setTxn p t).ms = s.ms := by cases p <;> rfl
@[simp] theorem State.setTxn_hels (p : Port) (t : Txn) : (s.setTxn p t).hels = s.hels := by cases p <;> rfl
@[simp] theorem State.setTxn_points (p : Port) (t : Txn) : (s.setTxn p t).points = s.points := by cases p <;> rfl
@[simp] theorem State.setTxn_zones (p : Port) (t : Txn) : (s.setTxn p t).zones = s.zones := by cases p <;> rfl
@[simp] theorem State.setTxn_segs (p : Port) (t : Txn) : (s.setTxn p t).segs = s.segs := by cases p <;> rfl
@[simp] theorem State.setTxn_sun (p : Port) (t : Txn) : (s.setTxn p t).sun = s.sun := by cases p <;> rfl
@[simp] theorem State.setTxn_snapshot (p : Port) (t : Txn) : (s.setTxn p t).snapshot = s.snapshot := by cases p <;> rfl
@[simp] theorem State.setTxn_sweep (p : Port) (t : Txn) : (s.setTxn p t).sweep = s.sweep := by cases p <;> rfl
@[simp] theorem State.setTxn_lastServed (p : Port) (t : Txn) : (s.setTxn p t).lastServed = s.lastServed := by cases p <;> rfl
@[simp] theorem State.setTxn_solveOut (p : Port) (t : Txn) : (s.setTxn p t).solveOut = s.solveOut := by cases p <;> rfl
@[simp] theorem State.setTxn_epoch (p : Port) (t : Txn) : (s.setTxn p t).epoch = s.epoch := by cases p <;> rfl
@[simp] theorem State.setTxn_rsg (p : Port) (t : Txn) : (s.setTxn p t).rsg = s.rsg := by cases p <;> rfl
@[simp] theorem State.setTxn_link (p : Port) (t : Txn) : (s.setTxn p t).link = s.link := by cases p <;> rfl
@[simp] theorem State.setTxn_scu (p : Port) (t : Txn) : (s.setTxn p t).scu = s.scu := by cases p <;> rfl
@[simp] theorem State.setTxn_pau (p : Port) (t : Txn) : (s.setTxn p t).pau = s.pau := by cases p <;> rfl
@[simp] theorem State.setTxn_form (p : Port) (t : Txn) : (s.setTxn p t).form = s.form := by cases p <;> rfl
@[simp] theorem State.setTxn_devents (p : Port) (t : Txn) : (s.setTxn p t).devents = s.devents := by cases p <;> rfl
@[simp] theorem State.setTxn_dmask (p : Port) (t : Txn) : (s.setTxn p t).dmask = s.dmask := by cases p <;> rfl
@[simp] theorem State.setTxn_pevents (p : Port) (t : Txn) : (s.setTxn p t).pevents = s.pevents := by cases p <;> rfl
@[simp] theorem State.setTxn_pmask (p : Port) (t : Txn) : (s.setTxn p t).pmask = s.pmask := by cases p <;> rfl
@[simp] theorem State.setTxn_pins (p : Port) (t : Txn) : (s.setTxn p t).pins = s.pins := by cases p <;> rfl
@[simp] theorem State.setTxn_draws (p : Port) (t : Txn) : (s.setTxn p t).draws = s.draws := by cases p <;> rfl
@[simp] theorem State.setTxn_pending (p : Port) (t : Txn) : (s.setTxn p t).pending = s.pending := by cases p <;> rfl
@[simp] theorem State.setTxn_hel (p : Port) (t : Txn) (j : Nat) : (s.setTxn p t).hel j = s.hel j := by cases p <;> rfl
@[simp] theorem State.setTxn_point (p : Port) (t : Txn) (j : Nat) : (s.setTxn p t).point j = s.point j := by cases p <;> rfl
@[simp] theorem State.setTxn_zone (p : Port) (t : Txn) (j : Nat) : (s.setTxn p t).zone j = s.zone j := by cases p <;> rfl
@[simp] theorem State.setTxn_seg (p : Port) (t : Txn) (j : Nat) : (s.setTxn p t).seg j = s.seg j := by cases p <;> rfl
@[simp] theorem State.setTxn_channel (p : Port) (t : Txn) (j : Nat) : (s.setTxn p t).channel j = s.channel j := by cases p <;> rfl
@[simp] theorem State.setTxn_shade (p : Port) (t : Txn) (j : Nat) : (s.setTxn p t).shade j = s.shade j := by cases p <;> rfl
@[simp] theorem State.setTxn_timer (p : Port) (t : Txn) (j : Nat) : (s.setTxn p t).timer j = s.timer j := by cases p <;> rfl
@[simp] theorem State.setTxn_present (p : Port) (t : Txn) : (s.setTxn p t).present = s.present := by cases p <;> rfl
@[simp] theorem State.setTxn_stowInEffect (p : Port) (t : Txn) : (s.setTxn p t).stowInEffect = s.stowInEffect := by cases p <;> rfl

/-! ### setRx -/

@[simp] theorem State.setRx_ms (k : Nat) (a : Bool) : (s.setRx k a).ms = s.ms := rfl
@[simp] theorem State.setRx_hels (k : Nat) (a : Bool) : (s.setRx k a).hels = s.hels := rfl
@[simp] theorem State.setRx_points (k : Nat) (a : Bool) : (s.setRx k a).points = s.points := rfl
@[simp] theorem State.setRx_zones (k : Nat) (a : Bool) : (s.setRx k a).zones = s.zones := rfl
@[simp] theorem State.setRx_segs (k : Nat) (a : Bool) : (s.setRx k a).segs = s.segs := rfl
@[simp] theorem State.setRx_sun (k : Nat) (a : Bool) : (s.setRx k a).sun = s.sun := rfl
@[simp] theorem State.setRx_snapshot (k : Nat) (a : Bool) : (s.setRx k a).snapshot = s.snapshot := rfl
@[simp] theorem State.setRx_sweep (k : Nat) (a : Bool) : (s.setRx k a).sweep = s.sweep := rfl
@[simp] theorem State.setRx_lastServed (k : Nat) (a : Bool) : (s.setRx k a).lastServed = s.lastServed := rfl
@[simp] theorem State.setRx_solveOut (k : Nat) (a : Bool) : (s.setRx k a).solveOut = s.solveOut := rfl
@[simp] theorem State.setRx_epoch (k : Nat) (a : Bool) : (s.setRx k a).epoch = s.epoch := rfl
@[simp] theorem State.setRx_rsg (k : Nat) (a : Bool) : (s.setRx k a).rsg = s.rsg := rfl
@[simp] theorem State.setRx_link (k : Nat) (a : Bool) : (s.setRx k a).link = s.link := rfl
@[simp] theorem State.setRx_scu (k : Nat) (a : Bool) : (s.setRx k a).scu = s.scu := rfl
@[simp] theorem State.setRx_pau (k : Nat) (a : Bool) : (s.setRx k a).pau = s.pau := rfl
@[simp] theorem State.setRx_dpt (k : Nat) (a : Bool) : (s.setRx k a).dpt = s.dpt := rfl
@[simp] theorem State.setRx_ppt (k : Nat) (a : Bool) : (s.setRx k a).ppt = s.ppt := rfl
@[simp] theorem State.setRx_form (k : Nat) (a : Bool) : (s.setRx k a).form = s.form := rfl
@[simp] theorem State.setRx_devents (k : Nat) (a : Bool) : (s.setRx k a).devents = s.devents := rfl
@[simp] theorem State.setRx_dmask (k : Nat) (a : Bool) : (s.setRx k a).dmask = s.dmask := rfl
@[simp] theorem State.setRx_pevents (k : Nat) (a : Bool) : (s.setRx k a).pevents = s.pevents := rfl
@[simp] theorem State.setRx_pmask (k : Nat) (a : Bool) : (s.setRx k a).pmask = s.pmask := rfl
@[simp] theorem State.setRx_draws (k : Nat) (a : Bool) : (s.setRx k a).draws = s.draws := rfl
@[simp] theorem State.setRx_pending (k : Nat) (a : Bool) : (s.setRx k a).pending = s.pending := rfl
@[simp] theorem State.setRx_hel (k : Nat) (a : Bool) (j : Nat) : (s.setRx k a).hel j = s.hel j := rfl
@[simp] theorem State.setRx_point (k : Nat) (a : Bool) (j : Nat) : (s.setRx k a).point j = s.point j := rfl
@[simp] theorem State.setRx_zone (k : Nat) (a : Bool) (j : Nat) : (s.setRx k a).zone j = s.zone j := rfl
@[simp] theorem State.setRx_seg (k : Nat) (a : Bool) (j : Nat) : (s.setRx k a).seg j = s.seg j := rfl
@[simp] theorem State.setRx_channel (k : Nat) (a : Bool) (j : Nat) : (s.setRx k a).channel j = s.channel j := rfl
@[simp] theorem State.setRx_shade (k : Nat) (a : Bool) (j : Nat) : (s.setRx k a).shade j = s.shade j := rfl
@[simp] theorem State.setRx_timer (k : Nat) (a : Bool) (j : Nat) : (s.setRx k a).timer j = s.timer j := rfl
@[simp] theorem State.setRx_present (k : Nat) (a : Bool) : (s.setRx k a).present = s.present := rfl
@[simp] theorem State.setRx_stowInEffect (k : Nat) (a : Bool) : (s.setRx k a).stowInEffect = s.stowInEffect := rfl

/-! ### setShd -/

@[simp] theorem State.setShd_ms (k : Nat) (a : Bool) : (s.setShd k a).ms = s.ms := rfl
@[simp] theorem State.setShd_hels (k : Nat) (a : Bool) : (s.setShd k a).hels = s.hels := rfl
@[simp] theorem State.setShd_points (k : Nat) (a : Bool) : (s.setShd k a).points = s.points := rfl
@[simp] theorem State.setShd_zones (k : Nat) (a : Bool) : (s.setShd k a).zones = s.zones := rfl
@[simp] theorem State.setShd_segs (k : Nat) (a : Bool) : (s.setShd k a).segs = s.segs := rfl
@[simp] theorem State.setShd_sun (k : Nat) (a : Bool) : (s.setShd k a).sun = s.sun := rfl
@[simp] theorem State.setShd_snapshot (k : Nat) (a : Bool) : (s.setShd k a).snapshot = s.snapshot := rfl
@[simp] theorem State.setShd_sweep (k : Nat) (a : Bool) : (s.setShd k a).sweep = s.sweep := rfl
@[simp] theorem State.setShd_lastServed (k : Nat) (a : Bool) : (s.setShd k a).lastServed = s.lastServed := rfl
@[simp] theorem State.setShd_solveOut (k : Nat) (a : Bool) : (s.setShd k a).solveOut = s.solveOut := rfl
@[simp] theorem State.setShd_epoch (k : Nat) (a : Bool) : (s.setShd k a).epoch = s.epoch := rfl
@[simp] theorem State.setShd_rsg (k : Nat) (a : Bool) : (s.setShd k a).rsg = s.rsg := rfl
@[simp] theorem State.setShd_link (k : Nat) (a : Bool) : (s.setShd k a).link = s.link := rfl
@[simp] theorem State.setShd_scu (k : Nat) (a : Bool) : (s.setShd k a).scu = s.scu := rfl
@[simp] theorem State.setShd_pau (k : Nat) (a : Bool) : (s.setShd k a).pau = s.pau := rfl
@[simp] theorem State.setShd_dpt (k : Nat) (a : Bool) : (s.setShd k a).dpt = s.dpt := rfl
@[simp] theorem State.setShd_ppt (k : Nat) (a : Bool) : (s.setShd k a).ppt = s.ppt := rfl
@[simp] theorem State.setShd_form (k : Nat) (a : Bool) : (s.setShd k a).form = s.form := rfl
@[simp] theorem State.setShd_devents (k : Nat) (a : Bool) : (s.setShd k a).devents = s.devents := rfl
@[simp] theorem State.setShd_dmask (k : Nat) (a : Bool) : (s.setShd k a).dmask = s.dmask := rfl
@[simp] theorem State.setShd_pevents (k : Nat) (a : Bool) : (s.setShd k a).pevents = s.pevents := rfl
@[simp] theorem State.setShd_pmask (k : Nat) (a : Bool) : (s.setShd k a).pmask = s.pmask := rfl
@[simp] theorem State.setShd_draws (k : Nat) (a : Bool) : (s.setShd k a).draws = s.draws := rfl
@[simp] theorem State.setShd_pending (k : Nat) (a : Bool) : (s.setShd k a).pending = s.pending := rfl
@[simp] theorem State.setShd_hel (k : Nat) (a : Bool) (j : Nat) : (s.setShd k a).hel j = s.hel j := rfl
@[simp] theorem State.setShd_point (k : Nat) (a : Bool) (j : Nat) : (s.setShd k a).point j = s.point j := rfl
@[simp] theorem State.setShd_zone (k : Nat) (a : Bool) (j : Nat) : (s.setShd k a).zone j = s.zone j := rfl
@[simp] theorem State.setShd_seg (k : Nat) (a : Bool) (j : Nat) : (s.setShd k a).seg j = s.seg j := rfl
@[simp] theorem State.setShd_channel (k : Nat) (a : Bool) (j : Nat) : (s.setShd k a).channel j = s.channel j := rfl
@[simp] theorem State.setShd_shade (k : Nat) (a : Bool) (j : Nat) : (s.setShd k a).shade j = s.shade j := rfl
@[simp] theorem State.setShd_timer (k : Nat) (a : Bool) (j : Nat) : (s.setShd k a).timer j = s.timer j := rfl
@[simp] theorem State.setShd_present (k : Nat) (a : Bool) : (s.setShd k a).present = s.present := rfl
@[simp] theorem State.setShd_stowInEffect (k : Nat) (a : Bool) : (s.setShd k a).stowInEffect = s.stowInEffect := rfl

/-! ### setLineCand -/

@[simp] theorem State.setLineCand_ms (c : Option Cand) : (s.setLineCand c).ms = s.ms := rfl
@[simp] theorem State.setLineCand_hels (c : Option Cand) : (s.setLineCand c).hels = s.hels := rfl
@[simp] theorem State.setLineCand_points (c : Option Cand) : (s.setLineCand c).points = s.points := rfl
@[simp] theorem State.setLineCand_zones (c : Option Cand) : (s.setLineCand c).zones = s.zones := rfl
@[simp] theorem State.setLineCand_segs (c : Option Cand) : (s.setLineCand c).segs = s.segs := rfl
@[simp] theorem State.setLineCand_sun (c : Option Cand) : (s.setLineCand c).sun = s.sun := rfl
@[simp] theorem State.setLineCand_snapshot (c : Option Cand) : (s.setLineCand c).snapshot = s.snapshot := rfl
@[simp] theorem State.setLineCand_sweep (c : Option Cand) : (s.setLineCand c).sweep = s.sweep := rfl
@[simp] theorem State.setLineCand_lastServed (c : Option Cand) : (s.setLineCand c).lastServed = s.lastServed := rfl
@[simp] theorem State.setLineCand_solveOut (c : Option Cand) : (s.setLineCand c).solveOut = s.solveOut := rfl
@[simp] theorem State.setLineCand_epoch (c : Option Cand) : (s.setLineCand c).epoch = s.epoch := rfl
@[simp] theorem State.setLineCand_rsg (c : Option Cand) : (s.setLineCand c).rsg = s.rsg := rfl
@[simp] theorem State.setLineCand_link (c : Option Cand) : (s.setLineCand c).link = s.link := rfl
@[simp] theorem State.setLineCand_scu (c : Option Cand) : (s.setLineCand c).scu = s.scu := rfl
@[simp] theorem State.setLineCand_dpt (c : Option Cand) : (s.setLineCand c).dpt = s.dpt := rfl
@[simp] theorem State.setLineCand_ppt (c : Option Cand) : (s.setLineCand c).ppt = s.ppt := rfl
@[simp] theorem State.setLineCand_form (c : Option Cand) : (s.setLineCand c).form = s.form := rfl
@[simp] theorem State.setLineCand_devents (c : Option Cand) : (s.setLineCand c).devents = s.devents := rfl
@[simp] theorem State.setLineCand_dmask (c : Option Cand) : (s.setLineCand c).dmask = s.dmask := rfl
@[simp] theorem State.setLineCand_pevents (c : Option Cand) : (s.setLineCand c).pevents = s.pevents := rfl
@[simp] theorem State.setLineCand_pmask (c : Option Cand) : (s.setLineCand c).pmask = s.pmask := rfl
@[simp] theorem State.setLineCand_pins (c : Option Cand) : (s.setLineCand c).pins = s.pins := rfl
@[simp] theorem State.setLineCand_draws (c : Option Cand) : (s.setLineCand c).draws = s.draws := rfl
@[simp] theorem State.setLineCand_pending (c : Option Cand) : (s.setLineCand c).pending = s.pending := rfl
@[simp] theorem State.setLineCand_hel (c : Option Cand) (j : Nat) : (s.setLineCand c).hel j = s.hel j := rfl
@[simp] theorem State.setLineCand_point (c : Option Cand) (j : Nat) : (s.setLineCand c).point j = s.point j := rfl
@[simp] theorem State.setLineCand_zone (c : Option Cand) (j : Nat) : (s.setLineCand c).zone j = s.zone j := rfl
@[simp] theorem State.setLineCand_seg (c : Option Cand) (j : Nat) : (s.setLineCand c).seg j = s.seg j := rfl
@[simp] theorem State.setLineCand_channel (c : Option Cand) (j : Nat) : (s.setLineCand c).channel j = s.channel j := rfl
@[simp] theorem State.setLineCand_shade (c : Option Cand) (j : Nat) : (s.setLineCand c).shade j = s.shade j := rfl
@[simp] theorem State.setLineCand_timer (c : Option Cand) (j : Nat) : (s.setLineCand c).timer j = s.timer j := rfl
@[simp] theorem State.setLineCand_present (c : Option Cand) : (s.setLineCand c).present = s.present := rfl

/-! ### unsweep -/

@[simp] theorem State.unsweep_ms (i : Nat) : (s.unsweep i).ms = s.ms := rfl
@[simp] theorem State.unsweep_hels (i : Nat) : (s.unsweep i).hels = s.hels := rfl
@[simp] theorem State.unsweep_points (i : Nat) : (s.unsweep i).points = s.points := rfl
@[simp] theorem State.unsweep_zones (i : Nat) : (s.unsweep i).zones = s.zones := rfl
@[simp] theorem State.unsweep_segs (i : Nat) : (s.unsweep i).segs = s.segs := rfl
@[simp] theorem State.unsweep_sun (i : Nat) : (s.unsweep i).sun = s.sun := rfl
@[simp] theorem State.unsweep_snapshot (i : Nat) : (s.unsweep i).snapshot = s.snapshot := rfl
@[simp] theorem State.unsweep_lastServed (i : Nat) : (s.unsweep i).lastServed = s.lastServed := rfl
@[simp] theorem State.unsweep_solveOut (i : Nat) : (s.unsweep i).solveOut = s.solveOut := rfl
@[simp] theorem State.unsweep_epoch (i : Nat) : (s.unsweep i).epoch = s.epoch := rfl
@[simp] theorem State.unsweep_rsg (i : Nat) : (s.unsweep i).rsg = s.rsg := rfl
@[simp] theorem State.unsweep_link (i : Nat) : (s.unsweep i).link = s.link := rfl
@[simp] theorem State.unsweep_scu (i : Nat) : (s.unsweep i).scu = s.scu := rfl
@[simp] theorem State.unsweep_pau (i : Nat) : (s.unsweep i).pau = s.pau := rfl
@[simp] theorem State.unsweep_dpt (i : Nat) : (s.unsweep i).dpt = s.dpt := rfl
@[simp] theorem State.unsweep_ppt (i : Nat) : (s.unsweep i).ppt = s.ppt := rfl
@[simp] theorem State.unsweep_form (i : Nat) : (s.unsweep i).form = s.form := rfl
@[simp] theorem State.unsweep_devents (i : Nat) : (s.unsweep i).devents = s.devents := rfl
@[simp] theorem State.unsweep_dmask (i : Nat) : (s.unsweep i).dmask = s.dmask := rfl
@[simp] theorem State.unsweep_pevents (i : Nat) : (s.unsweep i).pevents = s.pevents := rfl
@[simp] theorem State.unsweep_pmask (i : Nat) : (s.unsweep i).pmask = s.pmask := rfl
@[simp] theorem State.unsweep_pins (i : Nat) : (s.unsweep i).pins = s.pins := rfl
@[simp] theorem State.unsweep_draws (i : Nat) : (s.unsweep i).draws = s.draws := rfl
@[simp] theorem State.unsweep_pending (i : Nat) : (s.unsweep i).pending = s.pending := rfl
@[simp] theorem State.unsweep_hel (i : Nat) (j : Nat) : (s.unsweep i).hel j = s.hel j := rfl
@[simp] theorem State.unsweep_point (i : Nat) (j : Nat) : (s.unsweep i).point j = s.point j := rfl
@[simp] theorem State.unsweep_zone (i : Nat) (j : Nat) : (s.unsweep i).zone j = s.zone j := rfl
@[simp] theorem State.unsweep_seg (i : Nat) (j : Nat) : (s.unsweep i).seg j = s.seg j := rfl
@[simp] theorem State.unsweep_channel (i : Nat) (j : Nat) : (s.unsweep i).channel j = s.channel j := rfl
@[simp] theorem State.unsweep_shade (i : Nat) (j : Nat) : (s.unsweep i).shade j = s.shade j := rfl
@[simp] theorem State.unsweep_timer (i : Nat) (j : Nat) : (s.unsweep i).timer j = s.timer j := rfl
@[simp] theorem State.unsweep_present (i : Nat) : (s.unsweep i).present = s.present := rfl
@[simp] theorem State.unsweep_stowInEffect (i : Nat) : (s.unsweep i).stowInEffect = s.stowInEffect := rfl

/-! ### elapse -/

@[simp] theorem State.elapse_hels (d : Nat) : (s.elapse d).hels = s.hels := rfl
@[simp] theorem State.elapse_points (d : Nat) : (s.elapse d).points = s.points := rfl
@[simp] theorem State.elapse_zones (d : Nat) : (s.elapse d).zones = s.zones := rfl
@[simp] theorem State.elapse_sun (d : Nat) : (s.elapse d).sun = s.sun := rfl
@[simp] theorem State.elapse_snapshot (d : Nat) : (s.elapse d).snapshot = s.snapshot := rfl
@[simp] theorem State.elapse_sweep (d : Nat) : (s.elapse d).sweep = s.sweep := rfl
@[simp] theorem State.elapse_lastServed (d : Nat) : (s.elapse d).lastServed = s.lastServed := rfl
@[simp] theorem State.elapse_solveOut (d : Nat) : (s.elapse d).solveOut = s.solveOut := rfl
@[simp] theorem State.elapse_link (d : Nat) : (s.elapse d).link = s.link := rfl
@[simp] theorem State.elapse_scu (d : Nat) : (s.elapse d).scu = s.scu := rfl
@[simp] theorem State.elapse_dpt (d : Nat) : (s.elapse d).dpt = s.dpt := rfl
@[simp] theorem State.elapse_ppt (d : Nat) : (s.elapse d).ppt = s.ppt := rfl
@[simp] theorem State.elapse_form (d : Nat) : (s.elapse d).form = s.form := rfl
@[simp] theorem State.elapse_devents (d : Nat) : (s.elapse d).devents = s.devents := rfl
@[simp] theorem State.elapse_dmask (d : Nat) : (s.elapse d).dmask = s.dmask := rfl
@[simp] theorem State.elapse_pevents (d : Nat) : (s.elapse d).pevents = s.pevents := rfl
@[simp] theorem State.elapse_pmask (d : Nat) : (s.elapse d).pmask = s.pmask := rfl
@[simp] theorem State.elapse_pins (d : Nat) : (s.elapse d).pins = s.pins := rfl
@[simp] theorem State.elapse_draws (d : Nat) : (s.elapse d).draws = s.draws := rfl
@[simp] theorem State.elapse_pending (d : Nat) : (s.elapse d).pending = s.pending := rfl
@[simp] theorem State.elapse_hel (d : Nat) (j : Nat) : (s.elapse d).hel j = s.hel j := rfl
@[simp] theorem State.elapse_point (d : Nat) (j : Nat) : (s.elapse d).point j = s.point j := rfl
@[simp] theorem State.elapse_zone (d : Nat) (j : Nat) : (s.elapse d).zone j = s.zone j := rfl
@[simp] theorem State.elapse_channel (d : Nat) (j : Nat) : (s.elapse d).channel j = s.channel j := rfl
@[simp] theorem State.elapse_shade (d : Nat) (j : Nat) : (s.elapse d).shade j = s.shade j := rfl
@[simp] theorem State.elapse_present (d : Nat) : (s.elapse d).present = s.present := rfl

/-! ### refreshClear -/

@[simp] theorem State.refreshClear_ms : (s.refreshClear ).ms = s.ms := by unfold State.refreshClear; generalize s.fieldIsClear = b; dsimp only; split <;> rfl
@[simp] theorem State.refreshClear_hels : (s.refreshClear ).hels = s.hels := by unfold State.refreshClear; generalize s.fieldIsClear = b; dsimp only; split <;> rfl
@[simp] theorem State.refreshClear_points : (s.refreshClear ).points = s.points := by unfold State.refreshClear; generalize s.fieldIsClear = b; dsimp only; split <;> rfl
@[simp] theorem State.refreshClear_zones : (s.refreshClear ).zones = s.zones := by unfold State.refreshClear; generalize s.fieldIsClear = b; dsimp only; split <;> rfl
@[simp] theorem State.refreshClear_segs : (s.refreshClear ).segs = s.segs := by unfold State.refreshClear; generalize s.fieldIsClear = b; dsimp only; split <;> rfl
@[simp] theorem State.refreshClear_sun : (s.refreshClear ).sun = s.sun := by unfold State.refreshClear; generalize s.fieldIsClear = b; dsimp only; split <;> rfl
@[simp] theorem State.refreshClear_snapshot : (s.refreshClear ).snapshot = s.snapshot := by unfold State.refreshClear; generalize s.fieldIsClear = b; dsimp only; split <;> rfl
@[simp] theorem State.refreshClear_sweep : (s.refreshClear ).sweep = s.sweep := by unfold State.refreshClear; generalize s.fieldIsClear = b; dsimp only; split <;> rfl
@[simp] theorem State.refreshClear_lastServed : (s.refreshClear ).lastServed = s.lastServed := by unfold State.refreshClear; generalize s.fieldIsClear = b; dsimp only; split <;> rfl
@[simp] theorem State.refreshClear_solveOut : (s.refreshClear ).solveOut = s.solveOut := by unfold State.refreshClear; generalize s.fieldIsClear = b; dsimp only; split <;> rfl
@[simp] theorem State.refreshClear_epoch : (s.refreshClear ).epoch = s.epoch := by unfold State.refreshClear; generalize s.fieldIsClear = b; dsimp only; split <;> rfl
@[simp] theorem State.refreshClear_rsg : (s.refreshClear ).rsg = s.rsg := by unfold State.refreshClear; generalize s.fieldIsClear = b; dsimp only; split <;> rfl
@[simp] theorem State.refreshClear_link : (s.refreshClear ).link = s.link := by unfold State.refreshClear; generalize s.fieldIsClear = b; dsimp only; split <;> rfl
@[simp] theorem State.refreshClear_scu : (s.refreshClear ).scu = s.scu := by unfold State.refreshClear; generalize s.fieldIsClear = b; dsimp only; split <;> rfl
@[simp] theorem State.refreshClear_dpt : (s.refreshClear ).dpt = s.dpt := by unfold State.refreshClear; generalize s.fieldIsClear = b; dsimp only; split <;> rfl
@[simp] theorem State.refreshClear_ppt : (s.refreshClear ).ppt = s.ppt := by unfold State.refreshClear; generalize s.fieldIsClear = b; dsimp only; split <;> rfl
@[simp] theorem State.refreshClear_form : (s.refreshClear ).form = s.form := by unfold State.refreshClear; generalize s.fieldIsClear = b; dsimp only; split <;> rfl
@[simp] theorem State.refreshClear_devents : (s.refreshClear ).devents = s.devents := by unfold State.refreshClear; generalize s.fieldIsClear = b; dsimp only; split <;> rfl
@[simp] theorem State.refreshClear_dmask : (s.refreshClear ).dmask = s.dmask := by unfold State.refreshClear; generalize s.fieldIsClear = b; dsimp only; split <;> rfl
@[simp] theorem State.refreshClear_pmask : (s.refreshClear ).pmask = s.pmask := by unfold State.refreshClear; generalize s.fieldIsClear = b; dsimp only; split <;> rfl
@[simp] theorem State.refreshClear_pins : (s.refreshClear ).pins = s.pins := by unfold State.refreshClear; generalize s.fieldIsClear = b; dsimp only; split <;> rfl
@[simp] theorem State.refreshClear_draws : (s.refreshClear ).draws = s.draws := by unfold State.refreshClear; generalize s.fieldIsClear = b; dsimp only; split <;> rfl
@[simp] theorem State.refreshClear_pending : (s.refreshClear ).pending = s.pending := by unfold State.refreshClear; generalize s.fieldIsClear = b; dsimp only; split <;> rfl
@[simp] theorem State.refreshClear_hel (j : Nat) : (s.refreshClear ).hel j = s.hel j := by unfold State.refreshClear; generalize s.fieldIsClear = b; dsimp only; split <;> rfl
@[simp] theorem State.refreshClear_point (j : Nat) : (s.refreshClear ).point j = s.point j := by unfold State.refreshClear; generalize s.fieldIsClear = b; dsimp only; split <;> rfl
@[simp] theorem State.refreshClear_zone (j : Nat) : (s.refreshClear ).zone j = s.zone j := by unfold State.refreshClear; generalize s.fieldIsClear = b; dsimp only; split <;> rfl
@[simp] theorem State.refreshClear_seg (j : Nat) : (s.refreshClear ).seg j = s.seg j := by unfold State.refreshClear; generalize s.fieldIsClear = b; dsimp only; split <;> rfl
@[simp] theorem State.refreshClear_channel (j : Nat) : (s.refreshClear ).channel j = s.channel j := by unfold State.refreshClear; generalize s.fieldIsClear = b; dsimp only; split <;> rfl
@[simp] theorem State.refreshClear_shade (j : Nat) : (s.refreshClear ).shade j = s.shade j := by unfold State.refreshClear; generalize s.fieldIsClear = b; dsimp only; split <;> rfl
@[simp] theorem State.refreshClear_timer (j : Nat) : (s.refreshClear ).timer j = s.timer j := by unfold State.refreshClear; generalize s.fieldIsClear = b; dsimp only; split <;> rfl
@[simp] theorem State.refreshClear_present : (s.refreshClear ).present = s.present := by unfold State.refreshClear; generalize s.fieldIsClear = b; dsimp only; split <;> rfl

/-! ### superviseDelivery -/

@[simp] theorem State.superviseDelivery_ms (p : Port) : (s.superviseDelivery p).ms = s.ms := by cases p; rfl; unfold State.superviseDelivery; dsimp only; split <;> rfl
@[simp] theorem State.superviseDelivery_hels (p : Port) : (s.superviseDelivery p).hels = s.hels := by cases p; rfl; unfold State.superviseDelivery; dsimp only; split <;> rfl
@[simp] theorem State.superviseDelivery_points (p : Port) : (s.superviseDelivery p).points = s.points := by cases p; rfl; unfold State.superviseDelivery; dsimp only; split <;> rfl
@[simp] theorem State.superviseDelivery_zones (p : Port) : (s.superviseDelivery p).zones = s.zones := by cases p; rfl; unfold State.superviseDelivery; dsimp only; split <;> rfl
@[simp] theorem State.superviseDelivery_segs (p : Port) : (s.superviseDelivery p).segs = s.segs := by cases p; rfl; unfold State.superviseDelivery; dsimp only; split <;> rfl
@[simp] theorem State.superviseDelivery_sun (p : Port) : (s.superviseDelivery p).sun = s.sun := by cases p; rfl; unfold State.superviseDelivery; dsimp only; split <;> rfl
@[simp] theorem State.superviseDelivery_snapshot (p : Port) : (s.superviseDelivery p).snapshot = s.snapshot := by cases p; rfl; unfold State.superviseDelivery; dsimp only; split <;> rfl
@[simp] theorem State.superviseDelivery_sweep (p : Port) : (s.superviseDelivery p).sweep = s.sweep := by cases p; rfl; unfold State.superviseDelivery; dsimp only; split <;> rfl
@[simp] theorem State.superviseDelivery_lastServed (p : Port) : (s.superviseDelivery p).lastServed = s.lastServed := by cases p; rfl; unfold State.superviseDelivery; dsimp only; split <;> rfl
@[simp] theorem State.superviseDelivery_solveOut (p : Port) : (s.superviseDelivery p).solveOut = s.solveOut := by cases p; rfl; unfold State.superviseDelivery; dsimp only; split <;> rfl
@[simp] theorem State.superviseDelivery_epoch (p : Port) : (s.superviseDelivery p).epoch = s.epoch := by cases p; rfl; unfold State.superviseDelivery; dsimp only; split <;> rfl
@[simp] theorem State.superviseDelivery_rsg (p : Port) : (s.superviseDelivery p).rsg = s.rsg := by cases p; rfl; unfold State.superviseDelivery; dsimp only; split <;> rfl
@[simp] theorem State.superviseDelivery_link (p : Port) : (s.superviseDelivery p).link = s.link := by cases p; rfl; unfold State.superviseDelivery; dsimp only; split <;> rfl
@[simp] theorem State.superviseDelivery_scu (p : Port) : (s.superviseDelivery p).scu = s.scu := by cases p; rfl; unfold State.superviseDelivery; dsimp only; split <;> rfl
@[simp] theorem State.superviseDelivery_dpt (p : Port) : (s.superviseDelivery p).dpt = s.dpt := by cases p; rfl; unfold State.superviseDelivery; dsimp only; split <;> rfl
@[simp] theorem State.superviseDelivery_ppt (p : Port) : (s.superviseDelivery p).ppt = s.ppt := by cases p; rfl; unfold State.superviseDelivery; dsimp only; split <;> rfl
@[simp] theorem State.superviseDelivery_form (p : Port) : (s.superviseDelivery p).form = s.form := by cases p; rfl; unfold State.superviseDelivery; dsimp only; split <;> rfl
@[simp] theorem State.superviseDelivery_devents (p : Port) : (s.superviseDelivery p).devents = s.devents := by cases p; rfl; unfold State.superviseDelivery; dsimp only; split <;> rfl
@[simp] theorem State.superviseDelivery_dmask (p : Port) : (s.superviseDelivery p).dmask = s.dmask := by cases p; rfl; unfold State.superviseDelivery; dsimp only; split <;> rfl
@[simp] theorem State.superviseDelivery_pevents (p : Port) : (s.superviseDelivery p).pevents = s.pevents := by cases p; rfl; unfold State.superviseDelivery; dsimp only; split <;> rfl
@[simp] theorem State.superviseDelivery_pmask (p : Port) : (s.superviseDelivery p).pmask = s.pmask := by cases p; rfl; unfold State.superviseDelivery; dsimp only; split <;> rfl
@[simp] theorem State.superviseDelivery_pins (p : Port) : (s.superviseDelivery p).pins = s.pins := by cases p; rfl; unfold State.superviseDelivery; dsimp only; split <;> rfl
@[simp] theorem State.superviseDelivery_draws (p : Port) : (s.superviseDelivery p).draws = s.draws := by cases p; rfl; unfold State.superviseDelivery; dsimp only; split <;> rfl
@[simp] theorem State.superviseDelivery_pending (p : Port) : (s.superviseDelivery p).pending = s.pending := by cases p; rfl; unfold State.superviseDelivery; dsimp only; split <;> rfl
@[simp] theorem State.superviseDelivery_hel (p : Port) (j : Nat) : (s.superviseDelivery p).hel j = s.hel j := by cases p; rfl; unfold State.superviseDelivery; dsimp only; split <;> rfl
@[simp] theorem State.superviseDelivery_point (p : Port) (j : Nat) : (s.superviseDelivery p).point j = s.point j := by cases p; rfl; unfold State.superviseDelivery; dsimp only; split <;> rfl
@[simp] theorem State.superviseDelivery_zone (p : Port) (j : Nat) : (s.superviseDelivery p).zone j = s.zone j := by cases p; rfl; unfold State.superviseDelivery; dsimp only; split <;> rfl
@[simp] theorem State.superviseDelivery_seg (p : Port) (j : Nat) : (s.superviseDelivery p).seg j = s.seg j := by cases p; rfl; unfold State.superviseDelivery; dsimp only; split <;> rfl
@[simp] theorem State.superviseDelivery_channel (p : Port) (j : Nat) : (s.superviseDelivery p).channel j = s.channel j := by cases p; rfl; unfold State.superviseDelivery; dsimp only; split <;> rfl
@[simp] theorem State.superviseDelivery_shade (p : Port) (j : Nat) : (s.superviseDelivery p).shade j = s.shade j := by cases p; rfl; unfold State.superviseDelivery; dsimp only; split <;> rfl
@[simp] theorem State.superviseDelivery_timer (p : Port) (j : Nat) : (s.superviseDelivery p).timer j = s.timer j := by cases p; rfl; unfold State.superviseDelivery; dsimp only; split <;> rfl
@[simp] theorem State.superviseDelivery_present (p : Port) : (s.superviseDelivery p).present = s.present := by cases p; rfl; unfold State.superviseDelivery; dsimp only; split <;> rfl

/-! ### What a read gives after a write -/

theorem State.hel_modHel (i j : Nat) (f : Hel → Hel) :
    (s.modHel i f).hel j = if j = i then f (s.hel i) else s.hel j := Tab.get_put _ _ _ _ _
theorem State.hel_setHel (i j : Nat) (h : Hel) :
    (s.setHel i h).hel j = if j = i then h else s.hel j := Tab.get_put _ _ _ _ _
theorem State.point_modPoint (i j : Nat) (f : Point → Point) :
    (s.modPoint i f).point j = if j = i then f (s.point i) else s.point j := Tab.get_put _ _ _ _ _
theorem State.zone_modZone (i j : Nat) (f : Zone → Zone) :
    (s.modZone i f).zone j = if j = i then f (s.zone i) else s.zone j := Tab.get_put _ _ _ _ _
theorem State.seg_modSeg (i j : Nat) (f : Seg → Seg) :
    (s.modSeg i f).seg j = if j = i then f (s.seg i) else s.seg j := Tab.get_put _ _ _ _ _
theorem State.channel_modChannel (i j : Nat) (f : Channel → Channel) :
    (s.modChannel i f).channel j = if j = i then f (s.channel i) else s.channel j := Tab.get_put _ _ _ _ _
theorem State.shade_modShade (i j : Nat) (f : SegShade → SegShade) :
    (s.modShade i f).shade j = if j = i then f (s.shade i) else s.shade j := Tab.get_put _ _ _ _ _
theorem State.timer_setTimer (i j : Nat) (t : Option Nat) :
    (s.setTimer i t).timer j = if j = i then t else s.timer j := Tab.get_put _ _ _ _ _

@[simp] theorem State.hel_modHel_same (i : Nat) (f : Hel → Hel) : (s.modHel i f).hel i = f (s.hel i) :=
  Tab.get_put_same _ _ _ _
@[simp] theorem State.hel_setHel_same (i : Nat) (h : Hel) : (s.setHel i h).hel i = h := Tab.get_put_same _ _ _ _
@[simp] theorem State.point_modPoint_same (i : Nat) (f : Point → Point) :
    (s.modPoint i f).point i = f (s.point i) := Tab.get_put_same _ _ _ _
@[simp] theorem State.zone_modZone_same (i : Nat) (f : Zone → Zone) : (s.modZone i f).zone i = f (s.zone i) :=
  Tab.get_put_same _ _ _ _
@[simp] theorem State.seg_modSeg_same (i : Nat) (f : Seg → Seg) : (s.modSeg i f).seg i = f (s.seg i) :=
  Tab.get_put_same _ _ _ _
@[simp] theorem State.channel_modChannel_same (i : Nat) (f : Channel → Channel) :
    (s.modChannel i f).channel i = f (s.channel i) := Tab.get_put_same _ _ _ _
@[simp] theorem State.shade_modShade_same (i : Nat) (f : SegShade → SegShade) :
    (s.modShade i f).shade i = f (s.shade i) := Tab.get_put_same _ _ _ _
@[simp] theorem State.timer_setTimer_same (i : Nat) (t : Option Nat) : (s.setTimer i t).timer i = t :=
  Tab.get_put_same _ _ _ _

/-- All eight segments are rewritten. -/
theorem State.seg_modSegs (f : Seg → Seg) {k : Nat} (hk : k < 8) : (s.modSegs f).seg k = f (s.seg k) :=
  Tab.get_update_mem _ (fun _ => f) _ _ (List.mem_range.2 hk) List.nodup_range

/-- No other slot is rewritten. -/
theorem State.seg_modSegs_high (f : Seg → Seg) {k : Nat} (hk : 8 ≤ k) : (s.modSegs f).seg k = s.seg k :=
  Tab.get_update_notMem _ _ _ _ (by simp; omega)

/-- The transaction record written is the one read. -/
@[simp] theorem State.txn_setTxn_same (p : Port) (t : Txn) : (s.setTxn p t).txn p = t := by cases p <;> rfl

/-- A port's transaction record does not reach the other port's. -/
theorem State.txn_setTxn_ne {p q : Port} (h : q ≠ p) (t : Txn) : (s.setTxn p t).txn q = s.txn q := by
  cases p <;> cases q <;> first | rfl | exact absurd rfl h

/-- What the PAU holds after a FIELD_CLEAR update (R170). -/
theorem State.refreshClear_pau : s.refreshClear.pau = { s.pau with fieldClear := s.fieldIsClear } := by
  unfold State.refreshClear; generalize s.fieldIsClear = b; dsimp only; split <;> rfl

/-- A rise of FIELD_CLEAR raises DEFOCUS_COMPLETE, and nothing else touches the protection event set (R171). -/
theorem State.refreshClear_pevents : s.refreshClear.pevents =
    if s.fieldIsClear && !s.pau.fieldClear then s.pevents ||| (1#8 <<< PEvent.defocusComplete.pos) else s.pevents := by
  unfold State.refreshClear; generalize s.fieldIsClear = b; dsimp only; split <;> rfl

/-- A segment after `d` milliseconds. -/
theorem State.seg_elapse (d : Nat) {k : Nat} (hk : k < 8) : (s.elapse d).seg k = (s.seg k).elapse d := by
  unfold State.seg State.elapse
  dsimp only
  rw [Tab.get_update_mem _ _ _ _ (List.mem_range.2 hk) List.nodup_range]

/-- A release timer after `d` milliseconds. -/
theorem State.timer_elapse (d : Nat) {k : Nat} (hk : k < 8) : (s.elapse d).timer k = (s.timer k).map (· - d) := by
  unfold State.timer State.elapse Rsg.elapse
  dsimp only
  rw [Tab.get_update_mem _ _ _ _ (List.mem_range.2 hk) List.nodup_range]

theorem DEvent.pos_lt (e : DEvent) : e.pos < 18 := by cases e <;> decide

theorem PEvent.pos_lt (e : PEvent) : e.pos < 8 := by cases e <;> decide

theorem DEvent.pos_inj {e f : DEvent} (h : e.pos = f.pos) : e = f := by
  revert h; cases e <;> cases f <;> decide

theorem PEvent.pos_inj {e f : PEvent} (h : e.pos = f.pos) : e = f := by
  revert h; cases e <;> cases f <;> decide

/-- Which dispatch events are pending after a raise (R191). -/
theorem State.dPending_raiseD_iff (e f : DEvent) : (s.raiseD e).dPending f = (s.dPending f || decide (e = f)) := by
  simp only [State.dPending, State.raiseD, BitVec.getLsbD_or]
  congr 1
  cases e <;> cases f <;> decide

/-- Which protection events are pending after a raise (R191). -/
theorem State.pPending_raiseP_iff (e f : PEvent) : (s.raiseP e).pPending f = (s.pPending f || decide (e = f)) := by
  simp only [State.pPending, State.raiseP, BitVec.getLsbD_or]
  congr 1
  cases e <;> cases f <;> decide

/-- A raised dispatch event is pending (R191). -/
theorem State.dPending_raiseD (e : DEvent) : (s.raiseD e).dPending e = true := by
  simp [State.dPending_raiseD_iff]

/-- A raised protection event is pending (R191). -/
theorem State.pPending_raiseP (e : PEvent) : (s.raiseP e).pPending e = true := by
  simp [State.pPending_raiseP_iff]

end Sys2Proof.Machine
end

