-- ==== Sys2Proof/Laws/Books.lean ====
section
/-! SUPPORT. The books of the field: what one write of a record changes in a tally over the table, and what each move
between collections leaves in records and zones; and what leaving an address does to a segment. -/

namespace Sys2Proof.Machine

variable {α : Type} [DecidableEq α]

/-- The sum of a figure over the listed records. -/
def Tab.sum (g : α → Nat) (t : Tab α) : Nat := (t.map fun e => g e.2).sum

omit [DecidableEq α] in
theorem Tab.sum_insert (g : α → Nat) (i : Nat) (v : α) (t : Tab α) : Tab.sum g (Tab.insert i v t) = g v + Tab.sum g t := by
  induction t with
  | nil => rfl
  | cons e t ih =>
    obtain ⟨k, w⟩ := e
    unfold Tab.insert
    split
    · rfl
    · simp only [Tab.sum, List.map_cons, List.sum_cons] at ih ⊢
      omega

omit [DecidableEq α] in
theorem Tab.erase_of_keys_ne (t : Tab α) (i : Nat) (h : ∀ e ∈ t, e.1 ≠ i) : Tab.erase t i = t := by
  unfold Tab.erase
  exact List.filter_eq_self.mpr fun e he => by simpa using h e he

omit [DecidableEq α] in
theorem Tab.get_of_keys_ne (d : α) (t : Tab α) (i : Nat) (h : ∀ e ∈ t, e.1 ≠ i) : Tab.get d t i = d := by
  induction t with
  | nil => rfl
  | cons e t ih =>
    obtain ⟨k, w⟩ := e
    rw [Tab.get, if_neg (h (k, w) (by simp))]
    exact ih fun e he => h e (by simp [he])

/-- Unlisting a slot takes its own figure out of the sum. -/
theorem Tab.sum_erase {d : α} {t : Tab α} (h : Tab.wf d t = true) (g : α → Nat) (hd : g d = 0) (i : Nat) :
    Tab.sum g (Tab.erase t i) + g (Tab.get d t i) = Tab.sum g t := by
  have hp := ((Tab.wf_iff d t).mp h).2
  clear h
  induction t with
  | nil => simp [Tab.sum, Tab.erase, hd]
  | cons e t ih =>
    obtain ⟨k, w⟩ := e
    obtain ⟨hk, ht⟩ := List.pairwise_cons.mp hp
    by_cases hi : k = i
    · subst hi
      have hne : ∀ e ∈ t, e.1 ≠ k := fun e he => (Nat.ne_of_gt (hk e he))
      have he : Tab.erase ((k, w) :: t) k = t := by
        rw [show Tab.erase ((k, w) :: t) k = Tab.erase t k by simp [Tab.erase]]
        exact Tab.erase_of_keys_ne t k hne
      rw [he]
      simp [Tab.get, Tab.sum, Nat.add_comm]
    · have he : Tab.erase ((k, w) :: t) i = (k, w) :: Tab.erase t i := by simp [Tab.erase, hi]
      have hg : Tab.get d ((k, w) :: t) i = Tab.get d t i := by rw [Tab.get, if_neg hi]
      have := ih ht
      rw [he, hg]
      simp only [Tab.sum, List.map_cons, List.sum_cons] at this ⊢
      omega

/-- Writing a slot replaces its figure in the sum. -/
theorem Tab.sum_put {d : α} {t : Tab α} (h : Tab.wf d t = true) (g : α → Nat) (hd : g d = 0) (i : Nat) (v : α) :
    Tab.sum g (Tab.put d t i v) + g (Tab.get d t i) = Tab.sum g t + g v := by
  have he := Tab.sum_erase h g hd i
  unfold Tab.put
  split
  · next hv => subst hv; omega
  · rw [Tab.sum_insert]; omega

/-- Writing one record replaces its figure in a tally (R51, R60, R61, R65). -/
theorem State.tally_modHel {s : State} (h : Tab.wf Hel.empty s.hels = true) (g : Hel → Nat) (hd : g Hel.empty = 0) (i : Nat)
    (f : Hel → Hel) : (s.modHel i f).tally g + g (s.hel i) = s.tally g + g (f (s.hel i)) :=
  Tab.sum_put h g hd i _

/-- A write of a record that leaves its own figure leaves the tally. -/
theorem State.tally_modHel_same {s : State} (h : Tab.wf Hel.empty s.hels = true) (g : Hel → Nat) (hd : g Hel.empty = 0)
    (i : Nat) {f : Hel → Hel} (hf : g (f (s.hel i)) = g (s.hel i)) : (s.modHel i f).tally g = s.tally g := by
  have := State.tally_modHel h g hd i f
  omega

@[simp] theorem State.tally_modZone (s : State) (z : Nat) (f : Zone → Zone) (g : Hel → Nat) :
    (s.modZone z f).tally g = s.tally g := rfl

@[simp] theorem State.tally_modPoint (s : State) (p : Nat) (f : Point → Point) (g : Hel → Nat) :
    (s.modPoint p f).tally g = s.tally g := rfl

@[simp] theorem State.tally_modSeg (s : State) (k : Nat) (f : Seg → Seg) (g : Hel → Nat) :
    (s.modSeg k f).tally g = s.tally g := rfl

@[simp] theorem State.tally_raiseBoth (s : State) (d : DEvent) (p : PEvent) (g : Hel → Nat) :
    (s.raiseBoth d p).tally g = s.tally g := rfl

theorem State.tally_congr {s t : State} (h : t.hels = s.hels) (g : Hel → Nat) : t.tally g = s.tally g := by
  rw [State.tally, State.tally, h]

/-! ### Moves between collections -/

theorem State.hel_clearAlternate (s : State) (i j : Nat) :
    (s.clearAlternate i).hel j = if j = i then { s.hel i with onAlternate := false } else s.hel j := by
  unfold State.clearAlternate
  dsimp only
  split
  · rw [State.hel_modHel]
    split
    · next h => subst h; split <;> split <;> rfl
    · split <;> split <;> rfl
  · next h =>
    split
    · next e => subst e; simp only [Bool.not_eq_true] at h; rw [← h]
    · rfl

theorem State.zone_clearAlternate (s : State) (i z : Nat) : (s.clearAlternate i).zone z = s.zone z := by
  unfold State.clearAlternate
  dsimp only
  split
  · split <;> split <;> rfl
  · rfl

/-- A departure in the records (R28, R61). -/
theorem State.hel_departFrom (s : State) (z i : Nat) (dst : HState) (j : Nat) :
    (s.departFrom z i dst).hel j =
      if j = i then { s.hel i with state := dst, onAlternate := false, departing := true, departureZone := some z }
      else s.hel j := by
  simp only [State.departFrom, State.urgentAdd, State.modSeg_hel, State.hel_modHel, State.modZone_hel, State.hel_clearAlternate]
  split <;> simp

/-- A departure in the zones (R61). -/
theorem State.zone_departFrom (s : State) (z i : Nat) (dst : HState) (y : Nat) :
    (s.departFrom z i dst).zone y =
      if y = z then { s.zone z with
        joinList := (s.zone z).joinList.erase i, pendingDepartures := (s.zone z).pendingDepartures + 1 }
      else s.zone y := by
  simp only [State.departFrom, State.urgentAdd, State.modSeg_zone, State.modHel_zone, State.zone_modZone,
    State.zone_clearAlternate]

/-- Into QUEUED, at the tail of the assigned point's zone. -/
theorem State.hel_enqueue (s : State) (i j : Nat) :
    (s.enqueue i).hel j = if j = i then { s.hel i with state := .queued } else s.hel j := by
  simp only [State.enqueue, State.hel_modHel, State.modZone_hel]

theorem State.zone_enqueue (s : State) (i y : Nat) :
    (s.enqueue i).zone y =
      if y = s.assignedZone (s.hel i) then { s.zone y with queue := (s.zone y).queue ++ [i] } else s.zone y := by
  simp only [State.enqueue, State.modHel_zone, State.zone_modZone]
  split
  · next h => subst h; rfl
  · rfl

/-- Out of QUEUED. -/
theorem State.hel_dequeue (s : State) (i : Nat) (dst : HState) (j : Nat) :
    (s.dequeue i dst).hel j = if j = i then { s.hel i with state := dst } else s.hel j := by
  simp only [State.dequeue, State.hel_modHel, State.modZone_hel]

theorem State.zone_dequeue (s : State) (i : Nat) (dst : HState) (y : Nat) :
    (s.dequeue i dst).zone y =
      if y = s.assignedZone (s.hel i) then { s.zone y with queue := (s.zone y).queue.erase i } else s.zone y := by
  simp only [State.dequeue, State.modHel_zone, State.zone_modZone]
  split
  · next h => subst h; rfl
  · rfl

/-- The end of a departure in the records (R62, R63). -/
theorem State.hel_clearDeparture (s : State) (i j : Nat) :
    (s.clearDeparture i).hel j =
      if j = i ∧ (s.hel i).departing = true then { s.hel i with departing := false, departureZone := none }
      else s.hel j := by
  unfold State.clearDeparture
  dsimp only
  split
  · next h =>
    rw [State.hel_modHel]
    by_cases e : j = i
    · subst e; rw [if_pos rfl, if_pos ⟨rfl, h⟩]; split <;> rfl
    · rw [if_neg e, if_neg (by tauto)]; split <;> rfl
  · next h => rw [if_neg (by tauto)]

/-- The end of a departure in the zones (R62, R63). -/
theorem State.zone_clearDeparture (s : State) (i y : Nat) :
    (s.clearDeparture i).zone y =
      if (s.hel i).departing = true ∧ (s.hel i).departureZone = some y then
        { s.zone y with pendingDepartures := (s.zone y).pendingDepartures - 1 }
      else s.zone y := by
  unfold State.clearDeparture
  dsimp only
  split
  · next h =>
    rw [State.modHel_zone]
    split
    · next z e =>
      rw [State.zone_modZone]
      by_cases hy : y = z
      · subst hy; rw [if_pos rfl, if_pos ⟨h, e⟩]
      · rw [if_neg hy, if_neg fun ⟨_, k⟩ => hy (Option.some.inj (k.symm.trans e))]
    · next e => rw [if_neg fun ⟨_, k⟩ => by simp [e] at k]
  · next h => rw [if_neg (by tauto)]

/-- A grant in the records (R71, R63). -/
theorem State.hel_grant (s : State) (z i j : Nat) :
    ((s.grant z i).hel j) =
      if j = i then { s.hel i with
        state := .onTarget, onAlternate := false, dev := 0
        departing := false
        departureZone := if (s.hel i).departing then none else (s.hel i).departureZone }
      else s.hel j := by
  simp only [State.grant, State.hel_clearDeparture, State.hel_modHel, State.modZone_hel, if_true]
  by_cases e : j = i
  · subst e
    cases (s.hel j).departing <;> simp
  · simp [e]

/-! ### Leaving an address -/

/-- A frame orphaned for a heliostat: one to it that is not SOLVING carries the flag, any other stands (R113). -/
theorem Frame.orphanedBy_eq (i : Nat) (f : Frame) :
    Frame.orphanedBy i f =
      if f.heliostat = some i ∧ f.phase ≠ .solving then { f with orphaned := true } else f := by
  by_cases a : f.heliostat = some i <;> by_cases b : f.phase = .solving <;> simp [Frame.orphanedBy, a, b]

/-- Orphaning the frame and removing the urgent entry, which touch different fields, leave the segment as a heliostat's
address is left (R113, R122). -/
theorem addressLeft (g : Seg) (i : Nat) :
    AddressLeft g { g with urgent := g.urgent.filter (· != i), frame := g.frame.map (Frame.orphanedBy i) } i := by
  refine ⟨rfl, fun h => by simp [h], fun f h => ⟨fun a b => ?_, fun a => ?_⟩, rfl⟩
  · simp [h, Frame.orphanedBy_eq, a, b]
  · have n : ¬ (f.heliostat = some i ∧ f.phase ≠ .solving) := by
      rintro ⟨x, y⟩
      exact a.elim (· x) y
    simp [h, Frame.orphanedBy_eq, n]

end Sys2Proof.Machine
end

