-- ==== Sys2Proof/Laws/Clock.lean ====
section
/-! SUPPORT. What one cycle of a port's clock does within a byte, how clocked bits compose, and how many line bits a
segment's frame is. -/

namespace Sys2Proof.Machine

@[simp] theorem clockBits_nil (p : Port) (s : State) : clockBits p [] s = some (s, []) := rfl

/-- One bit clocked in, and the rest after it. -/
theorem clockBits_cons {p : Port} {b : Bool} {s t : State} (h : s.sckCycle p b = .next t) (bs : List Bool) :
    clockBits p (b :: bs) s = (clockBits p bs t).map fun r => (r.1, s.dso p :: r.2) := by
  simp only [clockBits, h]

/-- Bits clocked in one after another compose. -/
theorem clockBits_append {p : Port} {as : List Bool} {s t : State} {l : List (Option Bool)}
    (h : clockBits p as s = some (t, l)) (bs : List Bool) :
    clockBits p (as ++ bs) s = (clockBits p bs t).map fun r => (r.1, l ++ r.2) := by
  induction as generalizing s l with
  | nil =>
    cases h
    simp
  | cons a as ih =>
    cases hc : s.sckCycle p a with
    | next u =>
      rw [clockBits_cons hc] at h
      obtain ⟨⟨v, m⟩, hv, he⟩ := Option.map_eq_some_iff.mp h
      cases he
      rw [List.cons_append, clockBits_cons hc, ih hv]
      cases clockBits p bs v <;> simp
    | fault e => simp [clockBits, hc] at h
    | refused e => simp [clockBits, hc] at h

/-- Edges are ignored while DESELECTED (R173). -/
theorem State.sckCycle_deselected {s : State} {p : Port} (h : (s.txn p).phase = .deselected) (b : Bool) :
    s.sckCycle p b = .next (s.setTxn p (s.txn p)) := by
  simp [State.sckCycle, State.sckRise, State.sckFall, Txn.rise, h]

/-- A rising edge within a byte samples the data input where the port listens (R173). -/
theorem Txn.rise_within {t : Txn} (hd : t.phase ≠ .deselected) (hh : t.high = false) (hb : t.bitCount < 7) (p : Port)
    (b : Bool) : t.rise p b = { t with
      high := true
      bitCount := t.bitCount + 1
      shift := if t.listens then (t.shift <<< 1) ||| (if b then 1#8 else 0#8) else t.shift } := by
  unfold Txn.rise
  rw [if_neg (by simp [hd, hh])]
  have h7 : ¬ t.bitCount = 7 := by omega
  have hm : (t.bitCount + 1) % 8 = t.bitCount + 1 := by omega
  simp [h7, hm]

/-- The eighth rising edge completes the byte (R174, R177). -/
theorem Txn.rise_eighth {t : Txn} (hd : t.phase ≠ .deselected) (hh : t.high = false) (hb : t.bitCount = 7) (p : Port)
    (b : Bool) : t.rise p b = Txn.byteDone p { t with
      high := true
      bitCount := 0
      shift := if t.listens then (t.shift <<< 1) ||| (if b then 1#8 else 0#8) else t.shift } := by
  unfold Txn.rise
  rw [if_neg (by simp [hd, hh])]
  simp [hb]

/-- The falling edge that takes a command (R175): the bytes received are read back, and the command's row runs. -/
theorem State.sckFall_delivery {s : State} {p : Port} {c : Instr} (hh : (s.txn p).high = true)
    (hd : (s.txn p).atDelivery = true)
    (hc : decodeWire p ((s.txn p).command.toList ++ (s.txn p).operands) = some c) : s.sckFall p = exec c s := by
  have hp : (s.txn p).phase ≠ .deselected := by
    intro h
    simp [Txn.atDelivery, h] at hd
  simp [State.sckFall, hp, hh, hd, hc]

/-- Any other falling edge of a port that is not at an object's end presents the next bit (R173). -/
theorem State.sckFall_present {s : State} {p : Port} (hp : (s.txn p).phase ≠ .deselected) (hh : (s.txn p).high = true)
    (hd : (s.txn p).atDelivery = false) (ho : (s.txn p).atObjectEnd = false) :
    s.sckFall p = .next (s.setTxn p (s.txn p).present) := by
  simp [State.sckFall, hp, hh, hd, ho]

/-! ### Bits on a field link -/

@[simp] theorem lineByte_length (b : Byte) : (lineByte b).length = 10 := by simp [lineByte]

theorem Seg.cutOff_of_off {g : Seg} (h : g.driverEnable = false) : g.cutOff = g.cut := by
  unfold Seg.cutOff; rw [h]; rfl

/-- A segment without a frame that keeps what the abandonment stopped has stopped sending as R114 says. -/
theorem SendingStopped.of_cutOff {g g' : Seg} (hf : g'.frame = none) (hc : g'.cut = g.cutOff) :
    SendingStopped g g' := by
  refine ⟨by simp [Seg.driverEnable, hf], by simp [Seg.txBits, Seg.txBytes, hf], ?_,
    fun h => hc.trans (Seg.cutOff_of_off h)⟩
  rintro f r byte stop us h hp hr rfl
  have hcut : g'.cut = some ⟨g.txBytes, r⟩ := by
    rw [hc]; simp [Seg.cutOff, Seg.driverEnable, h, hp, hr]
  unfold Seg.txRest Seg.txAt Seg.txBits
  rw [hcut, h]
  cases r <;> simp [hr, Rate.bytesUs, Rate.bitUs]

/-- A segment after pin reset: at its reset values, with what a frame being sent still sends. -/
theorem State.seg_pinReset {s t : State} (h : execPinReset s = .next t) (k : Nat) :
    t.seg k = { Seg.reset with cut := if k < 8 then (s.seg k).cutOff else none } := by
  unfold execPinReset at h
  cases h
  unfold State.seg
  dsimp only
  by_cases hk : k < 8
  · rw [Tab.get_update_mem _ _ _ _ (List.mem_range.2 hk) List.nodup_range, if_pos hk]
    rfl
  · rw [Tab.get_update_notMem _ _ _ _ (by simpa using hk), if_neg hk]
    rfl

/-- Ten line bits for each byte sent (R102). -/
theorem Seg.txBits_length (g : Seg) : g.txBits.length = 10 * g.txBytes.length := by
  simp [Seg.txBits, List.length_flatMap, Nat.mul_comm]

end Sys2Proof.Machine
end

