-- ==== Sys2Proof/Laws/PerInstr.lean ====
section
/-! SUPPORT. Every port command travels with as many operand bytes as its port expects after its code; a byte
that names no command has none expected. One lemma per command. -/

namespace Sys2Proof.Laws

/-- The port expects exactly the operand bytes the command travels with (R174, R180 to R182, R188). -/
def WireShape.Statement (c : Instr) : Prop :=
  c.wellFormed = true → ∀ w, wire c = some w →
    match c with
    | .unknownCommand p b => operandLength p b = none
    | _ => operandLength w.port w.code = some w.operands.length

theorem WireShape.writeHeliostat : ∀ index segment drop x y z area refl, WireShape.Statement (.writeHeliostat index segment drop x y z area refl) := by
  intro index segment drop x y z area refl _ w h
  cases h
  rfl

theorem WireShape.assign : ∀ index point, WireShape.Statement (.assign index point) := by
  intro index point _ w h
  cases h
  rfl

theorem WireShape.park : ∀ index, WireShape.Statement (.park index) := by
  intro index _ w h
  cases h
  rfl

theorem WireShape.exclude : ∀ index, WireShape.Statement (.exclude index) := by
  intro index _ w h
  cases h
  rfl

theorem WireShape.includeHel : ∀ index, WireShape.Statement (.includeHel index) := by
  intro index _ w h
  cases h
  rfl

theorem WireShape.clearFault : ∀ index, WireShape.Statement (.clearFault index) := by
  intro index _ w h
  cases h
  rfl

theorem WireShape.releaseStranded : ∀ index, WireShape.Statement (.releaseStranded index) := by
  intro index _ w h
  cases h
  rfl

theorem WireShape.retire : ∀ index, WireShape.Statement (.retire index) := by
  intro index _ w h
  cases h
  rfl

theorem WireShape.readHeliostat : ∀ first, WireShape.Statement (.readHeliostat first) := by
  intro first _ w h
  cases h
  rfl

theorem WireShape.writeAimpoint : ∀ point valid x y z zone alternate, WireShape.Statement (.writeAimpoint point valid x y z zone alternate) := by
  intro point valid x y z zone alternate _ w h
  cases h
  rfl

theorem WireShape.setZone : ∀ zone limit standby, WireShape.Statement (.setZone zone limit standby) := by
  intro zone limit standby _ w h
  cases h
  rfl

theorem WireShape.readZone : ∀ port first, WireShape.Statement (.readZone port first) := by
  intro port first _ w h
  simp only [wire, Option.some.injEq] at h
  subst h
  cases port <;> rfl

theorem WireShape.readJoinList : ∀ zone, WireShape.Statement (.readJoinList zone) := by
  intro zone _ w h
  cases h
  rfl

theorem WireShape.readQueue : ∀ zone, WireShape.Statement (.readQueue zone) := by
  intro zone _ w h
  cases h
  rfl

theorem WireShape.setSun : ∀ sx sy sz dni atc, WireShape.Statement (.setSun sx sy sz dni atc) := by
  intro sx sy sz dni atc _ w h
  cases h
  rfl

theorem WireShape.setEpoch : ∀ period, WireShape.Statement (.setEpoch period) := by
  intro period _ w h
  cases h
  rfl

theorem WireShape.epochNow : WireShape.Statement .epochNow := by
  intro _ w h
  cases h
  rfl

theorem WireShape.setStagger : ∀ stepMs dmax seed, WireShape.Statement (.setStagger stepMs dmax seed) := by
  intro stepMs dmax seed _ w h
  cases h
  rfl

theorem WireShape.setLink : ∀ segment enable rate timeout quiet missLimit devLimit ptol, WireShape.Statement (.setLink segment enable rate timeout quiet missLimit devLimit ptol) := by
  intro segment enable rate timeout quiet missLimit devLimit ptol _ w h
  cases h
  rfl

theorem WireShape.restartSegment : ∀ segment, WireShape.Statement (.restartSegment segment) := by
  intro segment _ w h
  cases h
  rfl

theorem WireShape.postMaint : ∀ segment index action ops, WireShape.Statement (.postMaint segment index action ops) := by
  intro segment index action ops _ w h
  cases h
  rfl

theorem WireShape.readSegment : ∀ first, WireShape.Statement (.readSegment first) := by
  intro first _ w h
  cases h
  rfl

theorem WireShape.readMaint : ∀ segment, WireShape.Statement (.readMaint segment) := by
  intro segment _ w h
  cases h
  rfl

theorem WireShape.setShade : ∀ maps shf qual shadeMax depths, WireShape.Statement (.setShade maps shf qual shadeMax depths) := by
  intro maps shf qual shadeMax depths _ w h
  cases h
  rfl

theorem WireShape.readCapture : ∀ sensor, WireShape.Statement (.readCapture sensor) := by
  intro sensor _ w h
  cases h
  rfl

theorem WireShape.stow : WireShape.Statement .stow := by
  intro _ w h
  cases h
  rfl

theorem WireShape.unstow : WireShape.Statement .unstow := by
  intro _ w h
  cases h
  rfl

theorem WireShape.setForm : ∀ form, WireShape.Statement (.setForm form) := by
  intro form _ w h
  cases h
  rfl

theorem WireShape.readStatus : ∀ port, WireShape.Statement (.readStatus port) := by
  intro port _ w h
  simp only [wire, Option.some.injEq] at h
  subst h
  cases port <;> rfl

theorem WireShape.setMask : ∀ port events, WireShape.Statement (.setMask port events) := by
  intro port events _ w h
  cases port <;> simp [wire] at h <;> subst h <;> rfl

theorem WireShape.ackEvents : ∀ port events, WireShape.Statement (.ackEvents port events) := by
  intro port events _ w h
  cases port <;> simp [wire] at h <;> subst h <;> rfl

theorem WireShape.setProtectLimit : ∀ zone limit, WireShape.Statement (.setProtectLimit zone limit) := by
  intro zone limit _ w h
  cases h
  rfl

theorem WireShape.hold : ∀ zone, WireShape.Statement (.hold zone) := by
  intro zone _ w h
  cases h
  rfl

theorem WireShape.unhold : ∀ zone, WireShape.Statement (.unhold zone) := by
  intro zone _ w h
  cases h
  rfl

theorem WireShape.setRamp : ∀ zone value, WireShape.Statement (.setRamp zone value) := by
  intro zone value _ w h
  cases h
  rfl

theorem WireShape.fieldDefocus : WireShape.Statement .fieldDefocus := by
  intro _ w h
  cases h
  rfl

theorem WireShape.fieldRelease : WireShape.Statement .fieldRelease := by
  intro _ w h
  cases h
  rfl

theorem WireShape.setDeadline : ∀ value, WireShape.Statement (.setDeadline value) := by
  intro value _ w h
  cases h
  rfl

theorem WireShape.supervise : ∀ period, WireShape.Statement (.supervise period) := by
  intro period _ w h
  cases h
  rfl

theorem WireShape.unknownCommand : ∀ port code, WireShape.Statement (.unknownCommand port code) := by
  intro port code hw w _
  simpa [Instr.wellFormed] using hw

theorem WireShape.transactionDiscard : ∀ port, WireShape.Statement (.transactionDiscard port) := by
  intro port _ w h
  cases h

theorem WireShape.readObjectFix : ∀ port, WireShape.Statement (.readObjectFix port) := by
  intro port _ w h
  cases h

theorem WireShape.pinReset : WireShape.Statement .pinReset := by
  intro _ w h
  cases h

theorem WireShape.epochExpiry : WireShape.Statement .epochExpiry := by
  intro _ w h
  cases h

theorem WireShape.sweepVisit : WireShape.Statement .sweepVisit := by
  intro _ w h
  cases h

theorem WireShape.sweepComplete : ∀ accrualFirst, WireShape.Statement (.sweepComplete accrualFirst) := by
  intro accrualFirst _ w h
  cases h

theorem WireShape.solve : WireShape.Statement .solve := by
  intro _ w h
  cases h

theorem WireShape.solveBegun : WireShape.Statement .solveBegun := by
  intro _ w h
  cases h

theorem WireShape.releaseTimerExpiry : ∀ segment, WireShape.Statement (.releaseTimerExpiry segment) := by
  intro segment _ w h
  cases h

theorem WireShape.nextItemTaken : ∀ segment, WireShape.Statement (.nextItemTaken segment) := by
  intro segment _ w h
  cases h

theorem WireShape.frameSent : ∀ segment, WireShape.Statement (.frameSent segment) := by
  intro segment _ w h
  cases h

theorem WireShape.receptionComplete : ∀ segment bytes, WireShape.Statement (.receptionComplete segment bytes) := by
  intro segment bytes _ w h
  cases h

theorem WireShape.receptionBroken : ∀ segment, WireShape.Statement (.receptionBroken segment) := by
  intro segment _ w h
  cases h

theorem WireShape.replyTimeout : ∀ segment, WireShape.Statement (.replyTimeout segment) := by
  intro segment _ w h
  cases h

theorem WireShape.segmentLocked : ∀ segment, WireShape.Statement (.segmentLocked segment) := by
  intro segment _ w h
  cases h

theorem WireShape.quietExpiry : ∀ segment, WireShape.Statement (.quietExpiry segment) := by
  intro segment _ w h
  cases h

theorem WireShape.shadowSensorChange : ∀ sensor level, WireShape.Statement (.shadowSensorChange sensor level) := by
  intro sensor level _ w h
  cases h

theorem WireShape.shadowOnset : ∀ sensor, WireShape.Statement (.shadowOnset sensor) := by
  intro sensor _ w h
  cases h

theorem WireShape.shadowEnd : ∀ sensor, WireShape.Statement (.shadowEnd sensor) := by
  intro sensor _ w h
  cases h

theorem WireShape.sensorStuck : ∀ sensor, WireShape.Statement (.sensorStuck sensor) := by
  intro sensor _ w h
  cases h

theorem WireShape.stowLineChange : ∀ level, WireShape.Statement (.stowLineChange level) := by
  intro level _ w h
  cases h

theorem WireShape.stowLineQualified : WireShape.Statement .stowLineQualified := by
  intro _ w h
  cases h

theorem WireShape.deadlineExpiry : WireShape.Statement .deadlineExpiry := by
  intro _ w h
  cases h

theorem WireShape.supervisionExpired : WireShape.Statement .supervisionExpired := by
  intro _ w h
  cases h

theorem WireShape.receptionBegins : ∀ segment marker huntedUs, WireShape.Statement (.receptionBegins segment marker huntedUs) := by
  intro segment marker huntedUs _ w h
  cases h

theorem WireShape.lineFallsIdle : ∀ segment, WireShape.Statement (.lineFallsIdle segment) := by
  intro segment _ w h
  cases h

theorem WireShape.rxLineActive : ∀ segment, WireShape.Statement (.rxLineActive segment) := by
  intro segment _ w h
  cases h

theorem WireShape.transactionBegin : ∀ port, WireShape.Statement (.transactionBegin port) := by
  intro port _ w h
  cases h

theorem WireShape.transactionEnd : ∀ port, WireShape.Statement (.transactionEnd port) := by
  intro port _ w h
  cases h

end Sys2Proof.Laws
end

