-- ==== Sys2Proof/Laws/Port.lean ====
section
/-! SUPPORT. What a delivery of a port command leaves, said once for every command. -/

namespace Sys2Proof.Machine

/-- The state right after a delivery edge. -/
def State.afterDelivery (u : State) (w : WireCmd) (c : Code) (o : Option (List Byte × Option Cursor)) : State :=
  (u.superviseDelivery w.port).setTxn w.port (Txn.delivered w c o)

theorem otherPort_ne (p : Port) : otherPort p ≠ p := by cases p <;> simp [otherPort]

/-- The delivery edge of a command whose port is ready for it. -/
theorem deliverWith_ready {c : Instr} {w : WireCmd} (hw : wire c = some w) (act : State → State × Code)
    (first : State → Option (List Byte × Option Cursor)) {s : State} (hr : s.accepts c = true) :
    deliverWith c act first s =
      (act (s.setTxn w.port (Txn.received w))).1.afterDelivery w (act (s.setTxn w.port (Txn.received w))).2
        (if (act (s.setTxn w.port (Txn.received w))).2 = .done then
          first ((act (s.setTxn w.port (Txn.received w))).1.superviseDelivery w.port) else none) := by
  have h : (s.txn w.port).ready w = true := by simpa [State.accepts, hw] using hr
  simp [deliverWith, hw, h, State.afterDelivery]

/-- The delivery edge of a command whose port is not ready for it. -/
theorem deliverWith_notReady {c : Instr} {w : WireCmd} (hw : wire c = some w) (act : State → State × Code)
    (first : State → Option (List Byte × Option Cursor)) {s : State} (hr : s.accepts c = false) :
    deliverWith c act first s = s := by
  have h : (s.txn w.port).ready w = false := by simpa [State.accepts, hw] using hr
  simp [deliverWith, hw, h]

variable (u : State) (w : WireCmd) (c : Code) (o : Option (List Byte × Option Cursor))

@[simp] theorem State.superviseDelivery_bare (p : Port) : (u.superviseDelivery p).bare = u.bare := by
  cases p
  · rfl
  · unfold State.superviseDelivery; dsimp only; split <;> rfl

@[simp] theorem State.setTxn_bare (p : Port) (t : Txn) : (u.setTxn p t).bare = u.bare := by cases p <;> rfl

@[simp] theorem State.afterDelivery_bare : (u.afterDelivery w c o).bare = u.bare := by
  simp [State.afterDelivery]

@[simp] theorem State.afterDelivery_txn : (u.afterDelivery w c o).txn w.port = Txn.delivered w c o := by
  simp [State.afterDelivery]

@[simp] theorem State.superviseDelivery_txn (p q : Port) : (u.superviseDelivery p).txn q = u.txn q := by
  cases p
  · rfl
  · unfold State.superviseDelivery; dsimp only; split <;> cases q <;> rfl

theorem State.afterDelivery_other : (u.afterDelivery w c o).txn (otherPort w.port) = u.txn (otherPort w.port) := by
  simp [State.afterDelivery, State.txn_setTxn_ne _ (otherPort_ne w.port)]

/-- The supervision countdown after a delivery (R168). -/
theorem State.afterDelivery_supLeft : (u.afterDelivery w c o).pau.supLeft =
    if w.port = .protection ∧ u.pau.supPeriod ≠ 0 then some (u.pau.supPeriod * 10) else u.pau.supLeft := by
  rcases w with ⟨p, b, os⟩
  cases p
  · simp [State.afterDelivery, State.superviseDelivery]
  · by_cases h : u.pau.supPeriod = 0 <;> simp [State.afterDelivery, State.superviseDelivery, h]

/-- Nothing of the PAU but the supervision countdown is written by a delivery. -/
theorem State.afterDelivery_pau : (u.afterDelivery w c o).pau =
    { u.pau with supLeft := (u.afterDelivery w c o).pau.supLeft } := by
  rcases w with ⟨p, b, os⟩
  cases p
  · rfl
  · unfold State.afterDelivery State.superviseDelivery; dsimp only; split <;> rfl

@[simp] theorem State.afterDelivery_supPeriod : (u.afterDelivery w c o).pau.supPeriod = u.pau.supPeriod := by
  rw [State.afterDelivery_pau]

/-- A delivery leaves what `Delivered` says, where the action itself left the transaction records and the
supervision countdown. -/
theorem delivered_afterDelivery {s : State} {p : Port} (hp : w.port = p)
    (ht : u.txn (otherPort p) = s.txn (otherPort p)) (hs : u.pau.supLeft = s.pau.supLeft) :
    Delivered s (u.afterDelivery w c o) p c := by
  subst hp
  refine ⟨by simp [Txn.delivered, Txn.received], by simp [Txn.delivered], by simp [Txn.delivered], ?_, ?_⟩
  · rw [State.afterDelivery_other, ht]
  · rw [State.afterDelivery_supLeft, State.afterDelivery_supPeriod, hs]

/-- A port command whose port is ready for it completes: its action `act`, on the state with the command's bytes
received, decides the state and the code, and the delivery adds what `Delivered` says and nothing else. -/
theorem deliver_taken {c : Instr} {w : WireCmd} (hw : wire c = some w) {act : State → State × Code} {s u : State}
    {code : Code} (hr : s.accepts c = true) (ha : act (s.setTxn w.port (Txn.received w)) = (u, code))
    (ht : u.txn (otherPort w.port) = s.txn (otherPort w.port))
    (hs : u.pau.supLeft = s.pau.supLeft) :
    ∃ t, deliver c act s = .next t ∧ Delivered s t w.port code ∧ t.bare = u.bare := by
  refine ⟨_, by rw [deliver, deliverWith_ready hw _ _ hr], ?_, ?_⟩
  · rw [ha]; exact delivered_afterDelivery _ _ _ _ rfl ht hs
  · rw [ha]; simp

/-- Two states that agree but for what deliveries write agree in every field a delivery does not write. -/
theorem State.bare_eq {t u : State} (h : t.bare = u.bare) :
    t.ms = u.ms ∧ t.hels = u.hels ∧ t.points = u.points ∧ t.zones = u.zones ∧ t.segs = u.segs ∧ t.sun = u.sun
      ∧ t.snapshot = u.snapshot ∧ t.sweep = u.sweep ∧ t.lastServed = u.lastServed ∧ t.solveOut = u.solveOut
      ∧ t.epoch = u.epoch
      ∧ t.rsg = u.rsg ∧ t.link = u.link ∧ t.scu = u.scu ∧ t.form = u.form ∧ t.devents = u.devents
      ∧ t.dmask = u.dmask ∧ t.pevents = u.pevents ∧ t.pmask = u.pmask ∧ t.pins = u.pins ∧ t.draws = u.draws
      ∧ t.pending = u.pending ∧ { t.pau with supLeft := none } = { u.pau with supLeft := none } := by
  simp only [State.bare, State.mk.injEq] at h
  tauto

end Sys2Proof.Machine
end

