-- ==== Sys2Proof/Laws/Settle.lean ====
section
/-! SUPPORT. What departures, moves between collections and settlements can change: nothing outside
`SettleFrame`. -/

namespace Sys2Proof.Machine

variable {s t u : State}

theorem SettleFrame.refl (s : State) : SettleFrame s s :=
  ⟨fun _ => rfl, fun _ => rfl, fun _ => rfl, fun _ => rfl, rfl⟩

theorem SettleFrame.trans (h : SettleFrame s t) (k : SettleFrame t u) : SettleFrame s u :=
  ⟨fun i => (k.1 i).trans (h.1 i), fun z => (k.2.1 z).trans (h.2.1 z), fun p => (k.2.2.1 p).trans (h.2.2.1 p),
    fun j => (k.2.2.2.1 j).trans (h.2.2.2.1 j), k.2.2.2.2.trans h.2.2.2.2⟩

theorem SettleFrame.modHel (s : State) (i : Nat) {f : Hel → Hel} (hf : (f (s.hel i)).still = (s.hel i).still) :
    SettleFrame s (s.modHel i f) := by
  refine ⟨fun j => ?_, fun _ => rfl, fun _ => rfl, fun _ => rfl, rfl⟩
  by_cases h : j = i
  · subst h; simpa using hf
  · rw [State.hel_modHel, if_neg h]

theorem SettleFrame.modZone (s : State) (z : Nat) {f : Zone → Zone} (hf : ∀ zn : Zone, (f zn).still = zn.still) :
    SettleFrame s (s.modZone z f) := by
  refine ⟨fun _ => rfl, fun j => ?_, fun _ => rfl, fun _ => rfl, rfl⟩
  by_cases h : j = z
  · subst h; simpa using hf _
  · rw [State.zone_modZone, if_neg h]

theorem SettleFrame.modPoint (s : State) (p : Nat) {f : Point → Point} (hf : ∀ a : Point, (f a).still = a.still) :
    SettleFrame s (s.modPoint p f) := by
  refine ⟨fun _ => rfl, fun _ => rfl, fun j => ?_, fun _ => rfl, rfl⟩
  by_cases h : j = p
  · subst h; simpa using hf _
  · rw [State.point_modPoint, if_neg h]

theorem SettleFrame.modSeg (s : State) (k : Nat) {f : Seg → Seg} (hf : ∀ g : Seg, (f g).still = g.still) :
    SettleFrame s (s.modSeg k f) := by
  refine ⟨fun _ => rfl, fun _ => rfl, fun _ => rfl, fun j => ?_, rfl⟩
  by_cases h : j = k
  · subst h; simpa using hf _
  · rw [State.seg_modSeg, if_neg h]

theorem SettleFrame.raiseBoth (s : State) (d : DEvent) (p : PEvent) : SettleFrame s (s.raiseBoth d p) :=
  ⟨fun _ => rfl, fun _ => rfl, fun _ => rfl, fun _ => rfl, rfl⟩

theorem SettleFrame.urgentAdd (s : State) (k i : Nat) : SettleFrame s (s.urgentAdd k i) :=
  .modSeg s k fun _ => rfl

theorem SettleFrame.urgentRemove (s : State) (k i : Nat) : SettleFrame s (s.urgentRemove k i) :=
  .modSeg s k fun _ => rfl

/-! ### Departures and moves between collections -/

theorem State.clearAlternate_frame (s : State) (i : Nat) : SettleFrame s (s.clearAlternate i) := by
  unfold State.clearAlternate
  dsimp only
  split
  · refine SettleFrame.trans ?_ (.modHel _ i rfl)
    split <;> split <;>
      first
      | exact .refl s
      | exact .modPoint s _ fun _ => rfl
      | refine SettleFrame.trans ?_ (.modPoint _ _ fun _ => rfl)
        exact .modPoint s _ fun _ => rfl
  · exact .refl s

theorem State.departFrom_frame (s : State) (z i : Nat) (dst : HState) : SettleFrame s (s.departFrom z i dst) := by
  unfold State.departFrom
  dsimp only
  refine SettleFrame.trans ?_ (.urgentAdd _ _ i)
  refine SettleFrame.trans ?_ (.modHel _ i rfl)
  exact (s.clearAlternate_frame i).trans (.modZone _ z fun _ => rfl)

theorem State.depart_frame (s : State) (i : Nat) (dst : HState) : SettleFrame s (s.depart i dst) :=
  s.departFrom_frame _ i dst

theorem State.clearDeparture_frame (s : State) (i : Nat) : SettleFrame s (s.clearDeparture i) := by
  unfold State.clearDeparture
  dsimp only
  split
  · refine SettleFrame.trans ?_ (.modHel _ i rfl)
    split
    · exact .modZone s _ fun _ => rfl
    · exact .refl s
  · exact .refl s

theorem State.enqueue_frame (s : State) (i : Nat) : SettleFrame s (s.enqueue i) := by
  unfold State.enqueue
  refine SettleFrame.trans ?_ (.modHel _ i rfl)
  exact .modZone s _ fun _ => rfl

theorem State.dequeue_frame (s : State) (i : Nat) (dst : HState) : SettleFrame s (s.dequeue i dst) := by
  unfold State.dequeue
  refine SettleFrame.trans ?_ (.modHel _ i rfl)
  exact .modZone s _ fun _ => rfl

theorem State.queueOrStow_frame (s : State) (i : Nat) : SettleFrame s (s.queueOrStow i) := by
  unfold State.queueOrStow
  dsimp only
  split
  · exact s.enqueue_frame i
  · exact .modHel s i rfl

theorem State.leaveOver_frame (s : State) (z : Nat) : SettleFrame s (s.leaveOver z) := by
  unfold State.leaveOver
  split
  · exact .modZone s z fun _ => rfl
  · exact .refl s

/-! ### Settlement -/

theorem State.reroute_frame (s : State) (z i q : Nat) : SettleFrame s (s.reroute z i q) := by
  unfold State.reroute
  refine SettleFrame.trans ?_ (.urgentAdd _ _ i)
  refine SettleFrame.trans ?_ (.modHel _ i rfl)
  refine SettleFrame.trans ?_ (.modPoint _ q fun _ => rfl)
  refine ((SettleFrame.modZone s z (f := fun zn => { zn with joinList := zn.joinList.erase i }) fun _ => rfl).trans
    (SettleFrame.modZone _ (s.point q).zone (f := fun zn => { zn with joinList := zn.joinList ++ [i] })
      fun _ => rfl)).trans ?_
  split
  · exact .modPoint _ _ fun _ => rfl
  · exact .refl _

/-- The alternate a shed member goes to, as the conditions of R68. -/
theorem State.reroutePoint_eq_some (s : State) (z i q : Nat) :
    s.reroutePoint z i = some q ↔ s.alternateOf (s.hel i) = some q ∧ s.pau.defocus = false
      ∧ (s.hel i).onAlternate = false ∧ s.receiverOk q = true
      ∧ (s.point q).zone ≠ s.assignedZone (s.hel i) ∧ (s.point q).zone ≠ z ∧ (s.zone (s.point q).zone).hold = false
      ∧ s.committed (s.point q).zone + s.pEff (s.hel i) ≤ s.limitW (s.point q).zone := by
  simp only [State.reroutePoint]
  cases h : s.alternateOf (s.hel i) with
  | none => simp
  | some p =>
    simp only [Bool.and_eq_true, Bool.not_eq_true', bne_iff_ne, decide_eq_true_eq, Option.ite_none_right_eq_some,
      Option.some.injEq]
    constructor
    · rintro ⟨⟨⟨⟨⟨⟨⟨h1, h2⟩, h3⟩, h4⟩, h5⟩, h6⟩, h7⟩, rfl⟩
      exact ⟨rfl, h1, h2, h3, h4, h5, h6, h7⟩
    · rintro ⟨rfl, h1, h2, h3, h4, h5, h6, h7⟩
      exact ⟨⟨⟨⟨⟨⟨⟨h1, h2⟩, h3⟩, h4⟩, h5⟩, h6⟩, h7⟩, rfl⟩

/-- One shed turn, with the newest member named. -/
theorem State.shedOne_of_newest {s : State} {z i : Nat} (h : (s.zone z).joinList.getLast? = some i) :
    s.shedOne z = match s.reroutePoint z i with
      | some q => s.reroute z i q
      | none => (s.departFrom z i .queued).enqueue i := by
  unfold State.shedOne
  rw [h] <;> rfl

/-- One turn of the grant loop, with the head of the queue named. -/
theorem grantLoop_head {s : State} {z i : Nat} {rest : List Nat} (n : Nat) (h : (s.zone z).queue = i :: rest) :
    grantLoop (n + 1) z s = if s.grantable z i then grantLoop n z (s.grant z i) else (s, true) := by
  rw [grantLoop, h]

theorem State.shedOne_frame (s : State) (z : Nat) : SettleFrame s (s.shedOne z) := by
  unfold State.shedOne
  split
  · exact .refl s
  · split
    · exact s.reroute_frame z _ _
    · exact (s.departFrom_frame z _ _).trans (State.enqueue_frame _ _)

theorem shedLoop_frame (n z : Nat) (s : State) : SettleFrame s (shedLoop n z s) := by
  induction n generalizing s with
  | zero => exact .refl s
  | succ n ih =>
    unfold shedLoop
    split
    · exact (s.shedOne_frame z).trans (ih _)
    · exact .refl s

theorem State.grant_frame (s : State) (z i : Nat) : SettleFrame s (s.grant z i) := by
  unfold State.grant
  refine SettleFrame.trans ?_ (State.clearDeparture_frame _ i)
  refine SettleFrame.trans ?_ (.modHel _ i rfl)
  exact .modZone s z fun _ => rfl

theorem grantLoop_frame (n z : Nat) (s : State) : SettleFrame s (grantLoop n z s).1 := by
  induction n generalizing s with
  | zero => exact .refl s
  | succ n ih =>
    unfold grantLoop
    split
    · exact .refl s
    · split
      · exact (s.grant_frame z _).trans (ih _)
      · exact .refl s

theorem State.overStep_frame (s : State) (z : Nat) (was : ZState) : SettleFrame s (s.overStep z was) := by
  unfold State.overStep
  dsimp only
  split
  · exact .modZone s z fun _ => rfl
  · refine SettleFrame.trans ?_ (.raiseBoth _ _ _)
    exact .modZone s z fun _ => rfl

theorem State.grantStep_frame (s : State) (z : Nat) : SettleFrame s (s.grantStep z) := by
  unfold State.grantStep
  split
  · exact .modZone s z fun _ => rfl
  · split
    · exact .modZone s z fun _ => rfl
    · refine SettleFrame.trans ?_ (.modZone _ z fun _ => rfl)
      exact grantLoop_frame _ z s

theorem State.settle_frame (s : State) (z : Nat) : SettleFrame s (s.settle z) := by
  have close (u : State) (h : SettleFrame s u) :
      SettleFrame s (if u.overLimit z then u.overStep z (s.zone z).state else u.grantStep z) := by
    split
    · exact h.trans (u.overStep_frame z _)
    · exact h.trans (u.grantStep_frame z)
  refine close _ ?_
  split
  · exact (shedLoop_frame _ z s).trans (.raiseBoth _ _ _)
  · exact shedLoop_frame _ z s

theorem State.settleList_frame (zs : List Nat) (s : State) : SettleFrame s (s.settleList zs) := by
  induction zs generalizing s with
  | nil => exact .refl s
  | cons z zs ih => exact (s.settle_frame z).trans (ih _)

theorem State.settleAll_frame (s : State) : SettleFrame s s.settleAll := State.settleList_frame _ s

theorem State.refreshClear_frame (s : State) : SettleFrame s s.refreshClear := by
  unfold State.refreshClear
  generalize s.fieldIsClear = b
  dsimp only
  split <;> exact ⟨fun _ => rfl, fun _ => rfl, fun _ => rfl, fun _ => rfl, rfl⟩

end Sys2Proof.Machine
end

