-- ==== Sys2Proof/Laws/Solve.lean ====
section
/-! SUPPORT. What taking a solve request and handing over its answer do, said once. -/

namespace Sys2Proof.Machine

/-- The write of a solve is one record's (R89, R90). -/
theorem State.solveRecord_eq {s : State} {f : Frame} {i : Nat} (hi : f.heliostat = some i) :
    s.solveRecord f = if (s.hel i).state = .absent then s else s.modHel i s.solved := by
  simp [State.solveRecord, State.solveAbsent, hi]

/-- Taking a request: the record's write, the frame marked, the arbiter's place, and the answer that is out. -/
theorem State.takeSolve_eq {s : State} {k i : Nat} {f : Frame} (hf : (s.seg k).frame = some f)
    (hi : f.heliostat = some i) :
    s.takeSolve k = { (s.solveRecord f).modSeg k (fun g => { g with frame := some { f with taken := true } }) with
      lastServed := k
      solveOut := some ⟨k, (s.hel i).state == .absent⟩ } := by
  simp [State.takeSolve, hf, State.solveAbsent, hi]

/-- An answer whose segment waits for none of it is discarded (R90). -/
theorem State.handAnswer_discard {s : State} {o : SolveOut}
    (h : ∀ f, (s.seg o.segment).frame = some f → f.phase ≠ .solving ∨ f.taken = false) :
    s.handAnswer o = { s with solveOut := none } := by
  unfold State.handAnswer
  dsimp only
  split
  · next f hf =>
    rw [if_neg]
    rintro ⟨hp, ht⟩
    rcases h f hf with hn | hn
    · exact hn hp
    · simp [ht] at hn
  · rfl

/-- An answer that is waited for empties the frame of an absent record, or answers it (R90, R92). -/
theorem State.handAnswer_waited {s : State} {o : SolveOut} {f : Frame} (hf : (s.seg o.segment).frame = some f)
    (hp : f.phase = .solving) (ht : f.taken = true) :
    s.handAnswer o = if o.absent = true then ({ s with solveOut := none } : State).emptyFrame o.segment
      else ({ s with solveOut := none } : State).answerSolve o.segment f := by
  unfold State.handAnswer
  simp only [hf, hp, ht, and_self, if_true]

/-- How an answer ends (R92, R99): the frame is emptied, fixed, or asks again. -/
theorem State.answerSolve_eq {s : State} {k i : Nat} {f : Frame} (hi : f.heliostat = some i) :
    s.answerSolve k f =
      if (s.hel i).state = .absent ∨ (s.hel i).segment ≠ k ∨ (s.hel i).drop ≠ f.askedDrop ∨ (s.hel i).state = .excluded then
        s.emptyFrame k
      else if (s.hel i).tag.matches (s.currentTarget (s.hel i)) then s.fixFrame k i (s.trackFrame k i f.origin)
      else s.modSeg k fun g => { g with frame := some { f with taken := false } } := by
  simp [State.answerSolve, hi]

/-- SOLVE with the path free takes the next request and hands its answer over. -/
theorem State.handOver_takeSolve {s : State} {k i : Nat} {f : Frame} (hf : (s.seg k).frame = some f)
    (hi : f.heliostat = some i) :
    (s.takeSolve k).handOver = (s.takeSolve k).handAnswer ⟨k, (s.hel i).state == .absent⟩ := by
  unfold State.handOver
  rw [State.takeSolve_eq hf hi]

end Sys2Proof.Machine
end

