-- ==== Sys2Proof/Laws/Time.lean ====
section
/-! SUPPORT. What the passing of time does: the events that fall due are no port commands, and a tick changes
the counter, the countdowns and the sample of the stow line alone. -/

namespace Sys2Proof.Machine

/-- The events that fall due at a step of the counter are no port commands. -/
theorem State.wire_dueEvents (s : State) : ∀ c ∈ s.dueEvents, wire c = none := by
  intro c hc
  simp only [State.dueEvents, List.mem_append, List.mem_flatMap] at hc
  rcases hc with ((((((h | h) | h) | h) | h) | h) | h) | h
  · unfold State.dueStowLine at h
    dsimp only at h
    repeat' split at h
    all_goals simp_all [wire]
  · obtain ⟨k, -, h⟩ := h
    unfold State.dueSensor at h
    dsimp only at h
    repeat' split at h
    all_goals simp_all [wire]
  · obtain ⟨k, -, h⟩ := h
    unfold State.dueStuck at h
    dsimp only at h
    split at h <;> simp_all [wire]
  · split at h <;> simp_all [wire]
  · split at h <;> simp_all [wire]
  · obtain ⟨k, -, h⟩ := h
    split at h <;> simp_all [wire]
  · split at h <;> simp_all [wire]
  · obtain ⟨k, -, h⟩ := h
    unfold State.dueSegment at h
    simp only [List.mem_append] at h
    rcases h with (h | h) | h <;> (repeat' split at h) <;> simp_all [wire]

/-- A tick is a millisecond, a sample of STOWREQ_N and a queue of events. -/
theorem State.tick_eq (s : State) : ∃ due, (∀ c ∈ due, wire c = none) ∧
    s.tick = { s.elapse 1 with
      pau := { s.pau.elapse 1 with stowSampled := s.pins.stowreqN }
      pending := due } := by
  unfold State.tick
  dsimp only
  generalize h : State.dueEvents _ = due
  exact ⟨due, h ▸ State.wire_dueEvents _, rfl⟩

theorem State.seg_congr {s t : State} (h : s.segs = t.segs) (k : Nat) : s.seg k = t.seg k :=
  congrArg (Tab.get Seg.reset · k) h

theorem State.timer_congr {s t : State} (h : s.rsg = t.rsg) (k : Nat) : s.timer k = t.timer k :=
  congrArg (fun r : Rsg => Tab.get none r.timers k) h

theorem State.seg_tick (s : State) {k : Nat} (hk : k < 8) : s.tick.seg k = (s.seg k).elapse 1 := by
  obtain ⟨due, -, e⟩ := s.tick_eq
  exact (State.seg_congr (t := s.elapse 1) (by rw [e]) k).trans (s.seg_elapse 1 hk)

theorem State.timer_tick (s : State) {k : Nat} (hk : k < 8) : s.tick.timer k = (s.timer k).map (· - 1) := by
  obtain ⟨due, -, e⟩ := s.tick_eq
  exact (State.timer_congr (t := s.elapse 1) (by rw [e]) k).trans (s.timer_elapse 1 hk)

@[simp] theorem Seg.elapse_urgent (d : Nat) (g : Seg) : (g.elapse d).urgent = g.urgent := rfl
@[simp] theorem Seg.elapse_frame (d : Nat) (g : Seg) : (g.elapse d).frame = g.frame.map (Frame.elapse d) := rfl
@[simp] theorem Frame.elapse_heliostat (d : Nat) (f : Frame) : (f.elapse d).heliostat = f.heliostat := by
  unfold Frame.elapse; split <;> rfl
@[simp] theorem Frame.elapse_phase (d : Nat) (f : Frame) : (f.elapse d).phase = f.phase := by
  unfold Frame.elapse; split <;> rfl
@[simp] theorem Seg.elapse_cut (d : Nat) (g : Seg) : (g.elapse d).cut = g.cut := rfl
@[simp] theorem Seg.elapse_activeUs (d : Nat) (g : Seg) : (g.elapse d).activeUs = g.activeUs.map (· + 1000 * (d : Int)) :=
  rfl
@[simp] theorem Seg.elapse_state (d : Nat) (g : Seg) : (g.elapse d).state = g.state := rfl

end Sys2Proof.Machine
end

