-- ==== Sys2Proof/Tests/Slice0.lean ====
section
/-! SUPPORT. Tests: the checks of WellFormed, wire bytes written out from the spec, the spec's worked figures, at
most two one-step tests per command, and for every statement with hypotheses a state that meets them. -/

namespace Sys2Proof.Tests

set_option Elab.async false

open Sys2Proof Sys2Proof.Machine

/-! ### Helpers -/

/-- The port of a command stands in COMMAND with an empty record: its delivery can follow. -/
def onPort (c : Instr) (s : State) : State :=
  match wire c with
  | some w => s.setTxn w.port { Txn.reset with phase := .command }
  | none => s

/-- A command answers a next state of which `p` holds. -/
def runs (c : Instr) (s : State) (p : State → Bool) : Bool :=
  match exec c s with
  | .next t => p t
  | _ => false

/-- A port command is taken with code `o` and leaves a state of which `p` holds. -/
def takes (c : Instr) (s : State) (o : Code) (p : State → Bool) : Bool :=
  runs c (onPort c s) fun t =>
    (match wire c with | some w => (t.txn w.port).completion == some o | none => false) && p t

/-- Points 17 (zone 2, alternate 31), 31 (zone 3) and 96; zone 2 under 50 kW and 40 kW, zone 3 under 100 kW twice;
segment 1 enabled. Heliostats of segment 1: 5 ON_TARGET at drop 7, 6 QUEUED at 8, 7 STOWED at 9 without assignment,
8 EXCLUDED at 10, 9 FAULTED at 11 and 10 OFFLINE at 12 with 500 W stranded each in zone 2, 11 STANDBY at 13. -/
def plant : State :=
  let hel (drop : Nat) (st : HState) : Hel :=
    { Hel.empty with state := st, segment := 1, drop := drop, pos := ⟨-12000, 45000, 150⟩, area := 4800, refl := 952 }
  let at17 (h : Hel) : Hel := { h with assignment := some 17, pClear := 35748, pValid := true }
  let s : State := { State.reset with
    hels := [(5, at17 (hel 7 .onTarget)), (6, at17 (hel 8 .queued)), (7, hel 9 .stowed), (8, at17 (hel 10 .excluded)),
      (9, { hel 11 .faulted with stranded := some ⟨2, 500⟩, departing := true, departureZone := some 2 }),
      (10, { hel 12 .offline with stranded := some ⟨2, 500⟩ }), (11, at17 (hel 13 .standby))]
    points := [(17, ⟨true, ⟨0, 600, 16000⟩, 2, some 31, 4, 0, 0⟩), (31, ⟨true, ⟨0, 900, 16000⟩, 3, none, 0, 0, 0⟩),
      (96, ⟨true, ⟨5000, 0, 16000⟩, 0, none, 0, 0, 0⟩)]
    zones := [(2, { Zone.reset with
        dispatchLimit := 50, protectLimit := 40, stranded := 1000, joinList := [5], queue := [6],
        pendingDepartures := 1 }),
      (3, { Zone.reset with dispatchLimit := 100, protectLimit := 100 })]
    segs := [(1, { Seg.reset with state := .idle })] }
  { s with pau := { s.pau with fieldClear := false } }

/-- The sun of section 1.4's worked case. -/
def workedSun : Sun := ⟨true, ⟨22200, -17700, 16384⟩, 870, 480⟩

/-- Section 1.4's heliostat 1234, and its aim point's position. -/
def workedHel : Hel := { Hel.empty with state := .onTarget, pos := ⟨-12000, 45000, 150⟩, area := 4800, refl := 952 }

/-! ### WellFormed: an ill-formed term for each check -/

theorem test_reception_of_thirteen_bytes : (Instr.receptionComplete 0 (List.replicate 13 0)).wellFormed = false := by
  decide
theorem test_protection_mask_of_nine_bits : (Instr.setMask .protection 0x100).wellFormed = false := by decide
theorem test_protection_ack_of_nine_bits : (Instr.ackEvents .protection 0x100).wellFormed = false := by decide
theorem test_known_byte_is_not_unknown : (Instr.unknownCommand .dispatch 0x12).wellFormed = false := by decide
theorem test_hunting_past_longest_timeout : (Instr.receptionBegins 0 0x7E 25501).wellFormed = false := by decide

/-! ### Wire bytes (R180 to R182, R188, R200), one command of each family -/

theorem test_wire_write_heliostat :
    decodeWire .dispatch [0x10, 0x04, 0xD2, 3, 41, 0xFF, 0xFF, 0xD1, 0x20, 0x00, 0x00, 0xAF, 0xC8, 0x00, 0x00, 0x00,
      0x96, 0x12, 0xC0, 0x03, 0xB8] = some (.writeHeliostat 1234 3 41 (-12000) 45000 150 4800 952) := by decide
theorem test_wire_assign_none : decodeWire .dispatch [0x11, 0x04, 0xD2, 0xFF] = some (.assign 1234 255) := by decide
theorem test_wire_write_aimpoint :
    decodeWire .dispatch [0x20, 17, 1, 0, 0, 0, 0, 0, 0, 0x02, 0x58, 0, 0, 0x3E, 0x80, 2, 31]
      = some (.writeAimpoint 17 1 0 600 16000 2 31) := by decide
theorem test_wire_set_zone : decodeWire .dispatch [0x28, 6, 0, 180, 99] = some (.setZone 6 180 99) := by decide
theorem test_wire_set_epoch : decodeWire .dispatch [0x31, 0x03, 0xE8] = some (.setEpoch 1000) := by decide
theorem test_wire_set_stagger : decodeWire .dispatch [0x33, 20, 15, 1] = some (.setStagger 20 15 1) := by decide
theorem test_wire_set_link : decodeWire .dispatch [0x40, 1, 1, 2, 12, 10, 3, 3, 0x7F, 0xFE]
    = some (.setLink 1 1 2 12 10 3 3 32766) := by decide
theorem test_wire_post_maint : decodeWire .dispatch [0x42, 1, 0, 8, 0x11, 0x3D, 0xF2, 0x9E, 0x9E, 0x37, 0x5A]
    = some (.postMaint 1 8 0x11 0x3DF29E9E375A) := by decide
theorem test_wire_read_capture : decodeWire .dispatch [0x51, 6] = some (.readCapture 6) := by decide
theorem test_wire_stow : decodeWire .dispatch [0x60] = some .stow := by decide
theorem test_wire_ack_dispatch : decodeWire .dispatch [0x04, 0, 0x80, 0x40] = some (.ackEvents .dispatch 0x8040) := by
  decide
theorem test_wire_set_protect_limit : decodeWire .protection [0x80, 2, 0, 120] = some (.setProtectLimit 2 120) := by
  decide
theorem test_wire_unknown : decodeWire .protection [0x10] = some (.unknownCommand .protection 0x10) := by decide
theorem test_wire_short : decodeWire .dispatch [0x28, 6, 0, 180] = none := by decide

/-! ### The spec's worked figures -/

/-- Section 1.4, stages 1 to 4: the slant range 48,647, the normal and 35,748 W. -/
theorem test_worked_slant_range : ((⟨0, 600, 16000⟩ : Vec3).sub workedHel.pos).length = 48647 := by decide +kernel
theorem test_worked_solution : solveToward (some workedSun) workedHel (some ⟨0, 600, 16000⟩)
    = .found ⟨15858, -24930, 14170⟩ 35748 := by decide +kernel

/-- Section 1.4, the two failing cases. -/
theorem test_worked_geometry : solveToward (some workedSun) { workedHel with pos := ⟨0, 600, 16000⟩ } (some ⟨0, 600, 16000⟩)
    = .geometry := by decide +kernel
theorem test_worked_no_solution : solveToward (some { workedSun with s := ⟨-8083, 29907, -10676⟩ }) workedHel
    (some ⟨0, 600, 16000⟩) = .noSolution := by decide +kernel

/-- Section 1.5's table. -/
theorem test_worked_pointing_agrees : dotProduct ⟨15858, -24930, 14170⟩ ⟨15850, -24950, 14160⟩ = 32775
    ∧ deviates 32766 ⟨15858, -24930, 14170⟩ ⟨15850, -24950, 14160⟩ = false := by decide +kernel
theorem test_worked_pointing_deviates : dotProduct ⟨15858, -24930, 14170⟩ ⟨20000, -22000, 12000⟩ = 31605
    ∧ deviates 32766 ⟨15858, -24930, 14170⟩ ⟨20000, -22000, 12000⟩ = true := by decide +kernel

/-- Section 4.4's first start: STEP 20, DMAX 15, seed 1. -/
theorem test_worked_stagger :
    (let t := ({ State.reset with rsg := ⟨20, 15, 1, []⟩ } : State).startRsg
     (t.rsg.reg, (List.range 8).map t.timer))
      = (29, [some 1, some 22, some 44, some 68, some 80, some 100, some 120, some 140]) := by decide +kernel

/-- Section 11.1's frame bytes, offsets 2..10. -/
theorem test_worked_frame :
    ({ broadcastFrame .fast with
        drop := 41, kind := some .track, seq := 5, payload := vector16 ⟨15858, -24930, 14170⟩ } : Frame).covered
      = [0x29, 0x01, 0x05, 0x3D, 0xF2, 0x9E, 0x9E, 0x37, 0x5A] := by decide

/-- R101 by hand: one zero byte shifts the register 0xFF out of its top eight places. -/
theorem test_crc_shift : crcShift 0x8000 = 0x8BB7 ∧ crcShift 0x4000 = 0x8000 ∧ crc [] = 0xFFFF := by decide

/-- R101's figure over the single byte 0x00. -/
theorem test_crc_zero_byte : crc [0] = 0xAAB3 := by decide

/-- R102: the marker byte 0x7E on the line, and its table of durations of 13 and 14 bytes. -/
theorem test_line_marker : lineByte 0x7E = [.start, .data false, .data true, .data true, .data true, .data true,
    .data true, .data true, .data false, .stop] := by decide
theorem test_line_durations : [Rate.fast, .medium, .slow].map (fun r => (r.bytesUs 13, r.bytesUs 14, r.babbleUs))
    = [(130, 140, 400), (520, 560, 1600), (2080, 2240, 6400)] := by decide

/-- R185, R201, R186: the lengths of the objects. -/
theorem test_object_lengths : (plant.fullObject 5).length = 54 ∧ (plant.compactObject 5).length = 13
    ∧ (plant.dispatchStatus).length = 168 ∧ (plant.protectionStatus).length = 40 := by decide +kernel

/-- Section 3.7's first change: 120 kW sheds 104 to point 31 in zone 3, and zone 2 closes FULL. -/
theorem test_worked_limit_cut :
    (let h (sg p : Nat) : Hel :=
      { Hel.empty with state := .onTarget, segment := sg, drop := 1, assignment := some 20, pClear := p, pValid := true }
     let s : State := { plant with
      hels := [(101, h 2 35748), (102, h 4 40000), (103, h 5 38500), (104, h 5 36200),
        (105, { h 4 41000 with state := .queued }), (201, { h 4 45000 with assignment := some 31 }),
        (202, { h 7 44000 with assignment := some 31 })]
      points := [(20, ⟨true, ⟨0, 0, 0⟩, 2, some 31, 5, 0, 0⟩), (31, ⟨true, ⟨0, 0, 0⟩, 3, none, 2, 0, 0⟩)]
      zones := [(2, { Zone.reset with dispatchLimit := 250, protectLimit := 120, joinList := [101, 102, 103, 104], queue := [105] }),
        (3, { Zone.reset with dispatchLimit := 150, protectLimit := 150, joinList := [201, 202] })] }
     let t := s.settle 2
     ((t.zone 2).joinList, t.committed 2, (t.zone 2).state, (t.zone 3).joinList, t.committed 3, (t.hel 104).onAlternate))
      = ([101, 102, 103], 114248, ZState.full, [201, 202, 104], 125200, true) := by decide +kernel

/-! ### One step of each command -/

/-- The frame segment 1 awaits the reply to, heliostat 7 (drop 9), kind STOW, seq 1, `n` receptions counted. -/
def awaited (n : Nat) (receiving : Bool) : Frame :=
  { (plant.trackFrame 1 7 .pass).await 1000 with receptions := n, receiving := receiving }

/-- Segment 1 awaits that reply and a marker has begun a reception. -/
def waiting (n : Nat) : State := plant.modSeg 1 fun g => { g with frame := some (awaited n true) }

/-- Segment 1 awaits that reply and hunts. -/
def hunting (n : Nat) : State := plant.modSeg 1 fun g => { g with frame := some (awaited n false) }

/-- A reply's bytes with its CRC formed by R101. -/
def replyBytes (body : List Byte) : List Byte := [0x7E, 0xA5] ++ body ++ bytes16 (crc body)

/-- Drop 9 answers the frame of `waiting`: kind STOW, seq 1, motion STOWED, no fault, the stow normal. -/
def goodBytes : List Byte := replyBytes [9, 0x02, 0x31, 0, 0, 0, 0, 0, 0x7F, 0xFF]

/-- The same reply with the seq before it. -/
def staleBytes : List Byte := replyBytes [9, 0x02, 0x30, 0, 0, 0, 0, 0, 0x7F, 0xFF]

theorem test_write_heliostat_duplicate_drop :
    takes (.writeHeliostat 20 1 7 0 0 0 1 0) plant .duplicate fun t => t.bare == plant.bare := by decide +kernel
theorem test_write_heliostat_bound :
    takes (.writeHeliostat 1999 7 250 1000000 (-1000000) 0 1 1024) plant .done fun t => (t.hel 1999).state == .offline
    && (t.hel 1999).pos == ⟨1000000, -1000000, 0⟩ := by decide +kernel
theorem test_assign_stowed_queues :
    takes (.assign 7 31) plant .done fun t => (t.zone 3).queue == [7] && (t.point 31).inUse == 1 := by decide +kernel
theorem test_assign_standby_point :
    takes (.assign 7 96) plant .range fun t => t.bare == plant.bare := by decide +kernel
theorem test_park_on_target :
    takes (.park 5) plant .done fun t => (t.hel 5).state == .standby && (t.zone 2).pendingDepartures == 2
    && (t.seg 1).urgent == [5] := by decide +kernel
theorem test_park_stowed :
    takes (.park 7) plant .state fun t => t.bare == plant.bare := by decide +kernel
theorem test_exclude_standby :
    takes (.exclude 11) plant .done fun t => (t.hel 11).state == .excluded := by decide +kernel
theorem test_exclude_stranded :
    takes (.exclude 10) plant .state fun t => t.bare == plant.bare := by decide +kernel
theorem test_include :
    takes (.includeHel 8) plant .done fun t => (t.hel 8).state == .queued && (t.zone 2).queue == [6, 8] := by decide +kernel
theorem test_include_under_stow :
    takes (.includeHel 8) { plant with pau := { plant.pau with stowCommand := true } } .done fun t =>
    (t.hel 8).state == .stowed && (t.hel 8).assignment == some 17 := by decide +kernel
theorem test_clear_fault :
    takes (.clearFault 9) plant .done fun t => (t.hel 9).state == .offline && (t.zone 2).stranded == 500
    && (t.zone 2).pendingDepartures == 0 := by decide +kernel
theorem test_release_stranded :
    takes (.releaseStranded 10) plant .done fun t => (t.zone 2).stranded == 500 && (t.hel 10).state == .offline := by decide +kernel
theorem test_retire :
    takes (.retire 8) plant .done fun t => t.hel 8 == Hel.empty && (t.point 17).inUse == 3 := by decide +kernel
theorem test_retire_on_target :
    takes (.retire 5) plant .state fun t => t.bare == plant.bare := by decide +kernel
theorem test_read_heliostat_last :
    takes (.readHeliostat 1999) plant .done fun t => (t.txn .dispatch).cursor == none && (t.txn .dispatch).object.length == 54 := by decide +kernel
theorem test_write_aimpoint_in_use_zone :
    takes (.writeAimpoint 17 1 0 0 0 4 255) plant .state fun t => t.bare == plant.bare := by decide +kernel
theorem test_write_aimpoint_standby :
    takes (.writeAimpoint 111 1 5 6 7 0 255) plant .done fun t => (t.point 111).pos == ⟨5, 6, 7⟩ := by decide +kernel
theorem test_set_zone :
    takes (.setZone 2 180 96) plant .done fun t => (t.zone 2).dispatchLimit == 180 && (t.zone 2).standby == some 96 := by decide +kernel
theorem test_set_zone_bad_standby :
    takes (.setZone 2 180 112) plant .range fun t => t.bare == plant.bare := by decide +kernel
theorem test_read_zone_protection :
    takes (.readZone .protection 11) plant .done fun t => (t.txn .protection).cursor == none := by decide +kernel
theorem test_read_join_list :
    takes (.readJoinList 2) plant .done fun t => (t.txn .dispatch).object.reverse.take 2 == [5, 0] := by decide +kernel
theorem test_read_queue :
    takes (.readQueue 2) plant .done fun t => (t.txn .dispatch).object.reverse.take 2 == [6, 0] := by decide +kernel
theorem test_set_sun_held :
    takes (.setSun 0 0 0 870 480) plant .held fun t => t.dPending .sunHeld && !t.sun.present := by decide +kernel
theorem test_set_sun_clamped :
    takes (.setSun 0 0 (-32768) 1501 480) plant .clamped fun t => t.sun == ⟨true, ⟨0, 0, -32767⟩, 1500, 480⟩ := by decide +kernel
theorem test_set_epoch_clamped :
    takes (.setEpoch 249) plant .clamped fun t => t.epoch == ⟨true, 250, none, 250⟩ := by decide +kernel
theorem test_epoch_now_busy :
    takes .epochNow { plant with sweep := ⟨true, [5], none, 0⟩ } .busy fun t => t.sweep == ⟨true, [5], none, 0⟩ := by decide +kernel
theorem test_epoch_now :
    takes .epochNow plant .done fun t => t.sweep == ⟨true, [5, 6, 7, 8, 9, 10, 11], none, 0⟩ := by decide +kernel
theorem test_set_stagger_zero_seed :
    takes (.setStagger 20 15 0) plant .clamped fun t => t.rsg == ⟨20, 15, 1, []⟩ := by decide +kernel
theorem test_set_link_enables :
    takes (.setLink 0 1 1 0 10 3 3 32766) plant .clamped fun t => (t.seg 0).state == .idle && (t.seg 0).rate == .medium
    && (t.seg 0).timeout == 1 := by decide +kernel
theorem test_set_link_bad_rate :
    takes (.setLink 0 1 3 10 10 3 3 32766) plant .range fun t => t.bare == plant.bare := by decide +kernel
theorem test_restart_segment :
    takes (.restartSegment 1) (plant.modHel 5 fun h => { h with seq := 9, miss := 2 }) .done fun t => (t.hel 5).seq == 0
    && (t.hel 5).miss == 0 && (t.hel 5).state == .onTarget := by decide +kernel
theorem test_post_maint :
    takes (.postMaint 1 8 0x12 0) plant .done fun t => (t.seg 1).count == 1 && ((t.seg 1).slot 0).owner == .part := by decide +kernel
theorem test_post_maint_bad_action :
    takes (.postMaint 1 8 0x15 0) plant .range fun t => t.bare == plant.bare := by decide +kernel
theorem test_read_segment :
    takes (.readSegment 8) plant .range fun t => (t.txn .dispatch).object == [] := by decide +kernel
theorem test_read_maint :
    takes (.readMaint 7) plant .done fun t => (t.txn .dispatch).cursor == some (.maint 7 1) := by decide +kernel
theorem test_set_shade_clamped :
    takes (.setShade 0 300 5 0 0x0404040404040409) plant .clamped fun t => t.scu.shf == 256 && (t.channel 7).depth == 8 := by decide +kernel
theorem test_read_capture_closed :
    takes (.readCapture 6) (plant.modChannel 6 fun c => { c with records := [⟨2000000, some 900⟩, ⟨2003000, some 1500⟩], overruns := 1 })
    .done fun t => (t.channel 6).records == [⟨2003000, some 1500⟩] && (t.channel 6).overruns == 0 := by decide +kernel
theorem test_stow_clears_receiver :
    takes .stow plant .done fun t => (t.hel 5).state == .stowed && (t.zone 2).joinList == [] && (t.seg 1).owed := by decide +kernel
theorem test_unstow_requeues :
    takes .unstow { plant with pau := { plant.pau with stowCommand := true } } .done fun t => !t.stowInEffect
    && t.dPending .stowChange := by decide +kernel
theorem test_set_form_unknown :
    takes (.setForm 2) plant .range fun t => t.form == .full := by decide +kernel
theorem test_read_status_lengths :
    takes (.readStatus .protection) plant .done fun t => (t.txn .protection).object.length == 40 := by decide +kernel
theorem test_set_mask :
    takes (.setMask .protection 0x05) plant .done fun t => t.pmask == 0x05#8 := by decide +kernel
theorem test_ack_events :
    takes (.ackEvents .dispatch 1) { plant with devents := 3 } .done fun t => t.devents == 2#18 := by decide +kernel
theorem test_set_protect_limit_sheds :
    takes (.setProtectLimit 2 30) plant .done fun t => (t.zone 3).joinList == [5] && (t.hel 5).onAlternate := by decide +kernel
theorem test_hold :
    takes (.hold 3) plant .done fun t => (t.zone 3).state == .held := by decide +kernel
theorem test_unhold_grants :
    takes (.unhold 3) (plant.modZone 3 fun z => { z with hold := true }) .done fun t => !(t.zone 3).hold := by decide +kernel
theorem test_set_ramp_zero :
    takes (.setRamp 2 0) plant .clamped fun t => (t.zone 2).rjMax == 1 := by decide +kernel
theorem test_set_ramp_high :
    takes (.setRamp 2 33) plant .clamped fun t => (t.zone 2).rjMax == 32 := by decide +kernel
theorem test_field_defocus :
    takes .fieldDefocus plant .done fun t => (t.hel 5).state == .queued && t.pau.cause == .protection
    && t.pau.deadlineLeft == some 10000 := by decide +kernel
theorem test_field_release :
    takes .fieldRelease { plant with pau := { plant.pau with defocus := true } } .done fun t => !t.pau.defocus
    && t.dPending .defocusChange := by decide +kernel
theorem test_set_deadline_high :
    takes (.setDeadline 601) plant .clamped fun t => t.pau.deadline == 600 := by decide +kernel
theorem test_supervise :
    takes (.supervise 10) plant .done fun t => t.pau.supLeft == some 100 := by decide +kernel
theorem test_unknown_command :
    takes (.unknownCommand .protection 0x10) plant .unknown fun t => t.bare == plant.bare := by decide +kernel
theorem test_transaction_discard :
    runs (.transactionDiscard .dispatch) { plant with pins := { plant.pins with dselLow := true }, dpt := ⟨.operands, 3, some 0x11, [0], none, none, [], 0, 0, false, true⟩ }
    fun t => t.dpt == Txn.reset := by decide +kernel
theorem test_read_object_fix :
    runs (.readObjectFix .dispatch) { plant with dpt := { Txn.reset with phase := .data, completion := some .done } } fun t =>
    t.dpt.phase == .fill := by decide +kernel
theorem test_pin_reset :
    runs .pinReset plant fun t => t.hels == [] && t.pau.fieldClear := by decide +kernel
theorem test_epoch_expiry_overrun :
    runs .epochExpiry { plant with epoch := ⟨true, 250, some 300, 7⟩, sweep := ⟨true, [5], none, 0⟩ } fun t =>
    t.dPending .epochOverrun && t.epoch == ⟨true, 300, none, 300⟩ && t.ms == 7#32 := by decide +kernel
theorem test_sweep_visit :
    runs .sweepVisit { plant with sweep := ⟨true, [5, 6], none, 0⟩, snapshot := some workedSun } fun t =>
    (t.hel 5).nCmd == ⟨15858, -24930, 14170⟩ && (t.hel 5).pNew == 35748 && t.sweep == ⟨true, [6], some 5, 0⟩ := by decide +kernel
theorem test_sweep_complete_commits :
    runs (.sweepComplete 0) { (plant.modHel 6 fun h => { h with mark := true, pNew := 100, pNewValid := true }) with sweep := ⟨true, [], some 11, 65535⟩ } fun t =>
    (t.hel 6).pClear == 100 && (t.hel 5).pValid == false && t.sweep.count == 0 := by decide +kernel
theorem test_solve_next_segment :
    runs .solve { (plant.modSeg 1 fun g => { g with frame := some (solvingFrame 7 9 .pass) }) with lastServed := 7 } fun t =>
    t.lastServed == 1 && ((t.seg 1).frame.map (·.phase)) == some .sending := by decide +kernel
theorem test_solve_answer_waits :
    runs .solveBegun (plant.modSeg 1 fun g => { g with frame := some (solvingFrame 7 9 .pass) }) fun t =>
    t.solveOut == some ⟨1, false⟩ && (t.hel 7).seq == 0
    && runs .solve t (fun u => u.solveOut == none && (u.hel 7).seq == 1) := by decide +kernel
theorem test_bad_byte_while_hunting_uncounted :
    runs (.receptionBroken 1) (hunting 3) fun t => t == hunting 3 := by decide +kernel
theorem test_release_timer_expiry :
    runs (.releaseTimerExpiry 1) (plant.setTimer 1 (some 22)) fun t => (t.seg 1).state == .passing && t.ms == 22#32 := by decide +kernel
theorem test_next_item_urgent_first :
    runs (.nextItemTaken 1) (plant.modSeg 1 fun g => { g with urgent := [7], state := .passing }) fun t =>
    ((t.seg 1).frame.bind (·.heliostat)) == some 7 && (t.seg 1).urgent == [] := by decide +kernel
theorem test_next_item_broadcast_first :
    runs (.nextItemTaken 1) (plant.modSeg 1 fun g => { g with urgent := [7], owed := true }) fun t =>
    ((t.seg 1).frame.map (·.drop)) == some 255 && (t.seg 1).urgent == [7] := by decide +kernel
theorem test_frame_sent :
    runs (.frameSent 1) (plant.modSeg 1 fun g => { g with frame := some (plant.trackFrame 1 7 .pass) }) fun t =>
    ((t.seg 1).frame.map (·.remaining)) == some 1000 := by decide +kernel
theorem test_reception_broken :
    runs (.receptionBroken 1) (waiting 0) fun t => (t.seg 1).crcErrors == 1 && (t.hel 7).miss == 0 := by decide +kernel
theorem test_reception_fourth_is_miss :
    runs (.receptionBroken 1) (waiting 3) fun t => (t.seg 1).frame == none && (t.hel 7).miss == 1 := by decide +kernel
theorem test_reply_timeout :
    runs (.replyTimeout 1) (hunting 0) fun t => (t.seg 1).missed == 1 && (t.hel 7).miss == 1 := by decide +kernel
theorem test_reception_good_reply :
    runs (.receptionComplete 1 goodBytes) (waiting 0) fun t => (t.seg 1).answered == 1 && (t.hel 7).motion == .stowed := by decide +kernel
theorem test_reception_stale_reply :
    runs (.receptionComplete 1 staleBytes) (waiting 0) fun t => ((t.seg 1).frame.map (·.receptions)) == some 1
    && (t.seg 1).crcErrors == 0 := by decide +kernel
theorem test_segment_locked :
    runs (.segmentLocked 1) (plant.modSeg 1 fun g => { g with activeUs := some 401 }) fun t => (t.seg 1).state == .locked
    && t.dPending .segmentLocked := by decide +kernel
theorem test_quiet_expiry :
    runs (.quietExpiry 1) (plant.modSeg 1 fun g => { g with state := .locked, quietLeft := some 3 }) fun t =>
    (t.seg 1).state == .idle := by decide +kernel
theorem test_shadow_sensor_change :
    runs (.shadowSensorChange 2 false) { plant with ms := 1000000 } fun t => (t.channel 2).cand == some ⟨1000000, 1000050⟩ := by decide +kernel
theorem test_shadow_onset :
    runs (.shadowOnset 2) ({ plant with ms := 1000071 }.modChannel 2 fun c => { c with cand := some ⟨1000021, 1000071⟩ }) fun t =>
    (t.channel 2).records == [⟨1000021, none⟩] && (t.channel 2).state == .shaded := by decide +kernel
theorem test_shadow_end :
    runs (.shadowEnd 2) ({ plant with ms := 1018350 }.modChannel 2 fun c => { c with state := .shaded, records := [⟨1000021, none⟩], cand := some ⟨1018300, 1018350⟩ })
    fun t => (t.channel 2).records == [⟨1000021, some 18279⟩] := by decide +kernel
theorem test_sensor_stuck :
    runs (.sensorStuck 0) ({ plant with ms := 5120001, scu := { plant.scu with shadeMax := 120 } }.modChannel 0 fun c => { c with state := .shaded, shadeStart := 5000000 })
    fun t => (t.channel 0).state == .stuck && t.pPending .sensorStuck && t.ms == 5120001#32 := by decide +kernel
theorem test_stow_line_change :
    runs (.stowLineChange false) { plant with ms := 100 } fun t => t.pau.lineCand == some ⟨100, 120⟩ := by decide +kernel
theorem test_stow_line_qualified :
    runs .stowLineQualified { plant with ms := 120, pau := { plant.pau with lineCand := some ⟨100, 120⟩ } } fun t =>
    t.pau.asserted && (t.hel 5).state == .stowed := by decide +kernel
theorem test_deadline_expiry :
    runs .deadlineExpiry { plant with pau := { plant.pau with deadlineLeft := some 0 } } fun t => t.pau.lateCount == 1
    && t.pPending .defocusLate := by decide +kernel
theorem test_supervision_expired :
    runs .supervisionExpired { plant with pau := { plant.pau with supLeft := some 0, supPeriod := 5 } } fun t => t.pau.defocus
    && t.pau.cause == .supervision && t.pau.supPeriod == 5 := by decide +kernel
theorem test_reception_begins_holds_time :
    runs (.receptionBegins 1 0x7E 80) (hunting 0) fun t => ((t.seg 1).frame.map (·.remaining)) == some 920 := by decide +kernel
/-- R131: activity that began within a millisecond need not have lasted 400 us at its end (a reply at FAST lasts 140);
a millisecond later it has. -/
theorem test_babble_within_a_millisecond :
    runs (.rxLineActive 1) plant (fun t =>
      t.tick.pending == [] && ({ t.tick with pending := [] } : State).tick.pending == [.segmentLocked 1]) = true := by
  decide +kernel
/-- R103: a wait of 1 ms that begins within a millisecond has not run out at its end, but a millisecond later. -/
theorem test_wait_within_a_millisecond :
    ((hunting 0).tick.pending, ({ (hunting 0).tick with pending := [] } : State).tick.pending)
      = ([], [.replyTimeout 1]) := by decide +kernel
/-- R114: a broadcast stopped by a restart in its third byte (25 us at FAST) goes on to that byte's end and no further. -/
theorem test_restart_stops_sending :
    takes (.restartSegment 1) (plant.modSeg 1 fun g => { g with frame := some (broadcastFrame .fast) }) .done (fun t =>
      (t.seg 1).driverEnable == false && (t.seg 1).txRest 25 29 == some .stop && (t.seg 1).txRest 25 30 == none) = true := by
  decide +kernel
theorem test_line_falls_idle :
    runs (.lineFallsIdle 1) (plant.modSeg 1 fun g => { g with state := .locked }) fun t => (t.seg 1).quietLeft == some 100 := by decide +kernel
theorem test_rx_line_active :
    runs (.rxLineActive 1) (plant.modSeg 1 fun g => { g with state := .locked, quietLeft := some 50 }) fun t =>
    (t.seg 1).quietLeft == none := by decide +kernel
theorem test_transaction_begin :
    runs (.transactionBegin .protection) plant fun t => t.ppt.phase == .command && t.pins.pselLow && t.dpt == plant.dpt := by decide +kernel
theorem test_transaction_end :
    runs (.transactionEnd .dispatch) { plant with pins := { plant.pins with dselLow := true }, dpt := { Txn.reset with phase := .fill } }
    fun t => t.dpt == Txn.reset && !t.pins.dselLow := by decide +kernel

/-- Chapter 9: STOW's byte on an idle port, clocked in, is STOW; 0xFF is shifted out until then, and the next eight
cycles shift out the code DONE. -/
theorem test_clocked_stow :
    (let s := (onPort .stow plant).setSelect .dispatch true
     (clockBits .dispatch (msbFirst 0x60 ++ msbFirst 0) s).any fun r =>
      r.1.stowInEffect && r.2 == ((msbFirst 0xFF ++ msbFirst Code.done.byte).map some)) = true := by decide +kernel

/-- R147: an onset that qualifies past SHADE_MAX is queued with its STUCK at the same step of the counter. -/
theorem test_late_onset_is_stuck :
    (let s := { plant with ms := 2549, pins := { plant.pins with shd := 0xFE }, scu := { plant.scu with shadeMax := 1 } }
     (s.modChannel 0 fun c => { c with cand := some ⟨0, 2550⟩ }).tick.pending) = [.shadowOnset 0, .sensorStuck 0] := by
  decide +kernel

/-! ### Every statement's hypotheses can be met, at the bounds of its clauses -/

/-- A port at COMMAND accepts a command. -/
def accepted (c : Instr) (s : State) : Bool := (onPort c s).accepts c

/-- A queue with one command is stepped to a next state. -/
def steps (c : Instr) (s : State) (p : State → Bool) : Bool :=
  match step { s with pending := [c] } with
  | .next t => p t
  | _ => false

theorem witness_StepRunsFront :
    ({ plant with pending := [.stow, .unstow] } : State).pending = .stow :: [.unstow] := rfl
theorem witness_IdleTick :
    plant.pending = [] := rfl
/-- A sample at the qualified level while a candidate is pending, of sensor 7 and of the stow line, and two that differ
with the time up. -/
theorem witness_IdleTick_samples :
    (let s := ({ plant with
        pins := { plant.pins with stowreqN := true, shd := 0xFF }
        pau := { plant.pau with lineCand := some ⟨0, 20⟩ } } : State).modChannel 7 fun c => { c with cand := some ⟨0, 50⟩ }
     s.pending = [] ∧ (match step s with
      | .next t => t.pending == [.stowLineChange true, .shadowSensorChange 7 true]
      | _ => false) = true)
    ∧ (let s := ({ plant with
        ms := 49, pins := { plant.pins with stowreqN := false, shd := 0x7F }
        pau := { plant.pau with lineCand := some ⟨0, 20⟩ } } : State).modChannel 7 fun c => { c with cand := some ⟨0, 50⟩ }
     s.pending = [] ∧ (match step s with
      | .next t => t.pending == [.stowLineQualified, .shadowOnset 7]
      | _ => false) = true) := by decide +kernel
theorem witness_TransactionEdges :
    plant.selectLow .dispatch = false ∧ plant.txn .dispatch = Txn.reset ∧ plant.selectLow .protection = false
    ∧ (plant.selectFall .dispatch).selectLow .dispatch = true ∧ (plant.selectFall .protection).selectLow .protection = true
    ∧ runs (.transactionBegin .dispatch) plant (fun t => t.selectLow .dispatch) = true := by decide +kernel
theorem witness_UnknownCommand :
    accepted (.unknownCommand .dispatch 0x05) plant = true ∧ operandLength .dispatch 0x05 = none
    ∧ accepted (.unknownCommand .protection 0x88) plant = true ∧ operandLength .protection 0x88 = none
    ∧ accepted (.unknownCommand .dispatch 0x02) plant = true ∧ operandLength .dispatch 0x02 ≠ none := by decide +kernel
theorem witness_ReadObjectFix :
    (let s := { plant with
      dpt := { Txn.reset with phase := .data, completion := some .done, cursor := some (.zone 11) }
      ppt := { Txn.reset with phase := .completion, completion := some .done } }
     (s.txn .dispatch).completion.isSome = true ∧ (s.txn .dispatch).phase = .data
      ∧ (s.txn .dispatch).cursor = some (.zone 11) ∧ (s.txn .protection).completion.isSome = true
      ∧ (s.txn .protection).phase = .completion ∧ (s.txn .protection).cursor = none)
    ∧ (plant.txn .dispatch).completion = none := by decide +kernel
theorem witness_PortSettings :
    accepted (.setForm 0) plant ∧ accepted (.setForm 1) plant ∧ accepted (.setForm 2) plant
    ∧ accepted (.setMask .dispatch 0xFFFFFF) plant ∧ accepted (.setMask .protection 0xFF) plant := by decide +kernel
theorem witness_EventsAndAttention :
    (let s := onPort (.ackEvents .dispatch 1) { plant with devents := 1, dmask := 0 }
     s.accepts (.ackEvents .dispatch 1) = true ∧ s.attention .dispatch = true
      ∧ ∀ e : DEvent, s.dPending e = true → s.dmask.getLsbD e.pos = false → (1 : BitVec 24).getLsbD e.pos = true)
    ∧ (let s := onPort (.ackEvents .protection 1) { plant with pevents := 1, pmask := 0 }
     s.accepts (.ackEvents .protection 1) = true ∧ s.attention .protection = true
      ∧ ∀ e : PEvent, s.pPending e = true → s.pmask.getLsbD e.pos = false → (1 : BitVec 24).getLsbD e.pos = true) := by
  refine ⟨⟨by decide +kernel, by decide +kernel, fun e => ?_⟩, by decide +kernel, by decide +kernel, fun e => ?_⟩ <;>
    cases e <;> decide +kernel
theorem witness_SingleReads :
    accepted (.readStatus .dispatch) plant ∧ accepted (.readStatus .protection) plant ∧ accepted (.readJoinList 11) plant
    ∧ accepted (.readQueue 11) plant ∧ accepted (.readCapture 7) plant := by decide +kernel
theorem witness_SequenceReads :
    accepted (.readHeliostat 1999) plant ∧ accepted (.readHeliostat 2000) plant ∧ accepted (.readZone .dispatch 11) plant
    ∧ accepted (.readZone .protection 12) plant ∧ accepted (.readSegment 7) plant ∧ accepted (.readSegment 8) plant
    ∧ accepted (.readMaint 7) plant ∧ accepted (.readMaint 8) plant := by decide +kernel
theorem witness_RefusedChangesNothing :
    1999 < (2000 : BitVec 16).toNat ∧ accepted (.assign 2000 0) plant ∧ accepted (.retire 2000) plant
    ∧ accepted (.writeHeliostat 2000 0 1 0 0 0 1 1) plant
    ∧ (plant.hel (1999 : BitVec 16).toNat).state = .absent ∧ accepted (.park 1999) plant ∧ accepted (.exclude 1999) plant
    ∧ accepted (.setZone 12 0 255) plant ∧ accepted (.readQueue 12) plant ∧ accepted (.setProtectLimit 12 0) plant
    ∧ accepted (.hold 12) plant ∧ accepted (.setRamp 12 4) plant ∧ accepted (.restartSegment 8) plant
    ∧ accepted (.readCapture 8) plant ∧ accepted (.postMaint 8 0 0x11 0) plant
    ∧ accepted (.setLink 8 1 0 10 10 3 3 32766) plant ∧ accepted (.setLink 7 1 3 10 10 3 3 32766) plant
    ∧ 2 < (3 : Byte).toNat ∧ (plant.hel 8).state = .excluded ∧ accepted (.assign 8 17) plant
    ∧ (plant.hel 7).state = .stowed ∧ accepted (.assign 7 96) plant ∧ (plant.point 95).valid = false
    ∧ accepted (.assign 7 95) plant := by decide +kernel
theorem witness_RefusedChangesNothing_releases :
    (plant.hel 10).state = .offline ∧ accepted (.clearFault 10) plant
    ∧ (plant.hel 5).state = .onTarget ∧ accepted (.releaseStranded 5) plant
    ∧ (let s := plant.modHel 9 fun h => { h with stranded := none }
     (s.hel 9).state = .faulted ∧ (s.hel 9).stranded = none ∧ accepted (.releaseStranded 9) s) := by decide +kernel
/-- A full segment 2: 250 OFFLINE heliostats at the drops 1..250. -/
def crowd : State :=
  { plant with hels := (List.range 250).map fun n => (n, { Hel.empty with state := .offline, segment := 2, drop := n + 1 }) }
theorem witness_RefusedChangesNothing_write :
    accepted (.writeHeliostat 5 1 14 0 0 0 1 0) plant ∧ (plant.hel 5).state = .onTarget
    ∧ accepted (.writeHeliostat 9 1 14 0 0 0 1 0) plant ∧ (plant.hel 9).departing = true
    ∧ accepted (.writeHeliostat 1999 8 1 0 0 0 1 0) plant ∧ (plant.hel 1999).state = .absent
    ∧ accepted (.writeHeliostat 1999 1 251 0 0 0 1 1024) plant ∧ accepted (.writeHeliostat 1999 1 0 1000001 0 0 0 1025) plant
    ∧ accepted (.writeHeliostat 1999 1 7 1000000 0 (-1000000) 1 1024) plant
    ∧ (5 ∈ plant.othersIn 1 1999 ∧ (plant.hel 5).drop = 7 ∧ (plant.othersIn 1 1999).length < 250) := by decide +kernel
theorem witness_RefusedChangesNothing_full :
    accepted (.writeHeliostat 1999 2 1 0 0 0 1 0) crowd ∧ (crowd.hel 1999).state = .absent
    ∧ (crowd.hel 1999).departing = false ∧ 250 ≤ (crowd.othersIn 2 1999).length := by decide +kernel
theorem witness_WriteHeliostatFresh :
    (let c := Instr.writeHeliostat 1999 7 250 1000000 (-1000000) 0 1 1024
     let s := onPort c plant
     s.accepts c = true ∧ s.hel 1999 = Hel.empty ∧ (s.othersIn 7 1999).length < 250
      ∧ (∀ x ∈ [(1000000 : BitVec 32).toInt, (-1000000 : BitVec 32).toInt, 0], -1000000 ≤ x ∧ x ≤ 1000000)
      ∧ ∀ j ∈ s.othersIn 7 1999, (s.hel j).drop ≠ 250) := by decide +kernel
theorem witness_WriteHeliostatPresent :
    (let c := Instr.writeHeliostat 7 1 1 0 0 0 1 0
     let s := onPort c plant
     s.accepts c = true ∧ (s.hel 7).state = .stowed ∧ (s.hel 7).assignment = none ∧ (s.hel 7).departing = false
      ∧ (s.othersIn 1 7).length < 250 ∧ ∀ j ∈ s.othersIn 1 7, (s.hel j).drop ≠ 1)
    ∧ (let c := Instr.writeHeliostat 8 1 10 0 0 0 1 0
     let s := onPort c plant
     s.accepts c = true ∧ (s.hel 8).state = .excluded ∧ (s.hel 8).departing = false
      ∧ ∀ j ∈ s.othersIn 1 8, (s.hel j).drop ≠ 10) := by decide +kernel
/-- Frames and urgent entries of heliostat 8's segment, as an address of 8 is left: one to 8 sent, one asked for, one to
another heliostat. -/
theorem witness_AddressLeft :
    (let g := (plant.modSeg 1 fun g => { g with frame := some (plant.trackFrame 1 8 .urgent), urgent := [7, 8] }).seg 1
     g.frame = some (plant.trackFrame 1 8 .urgent) ∧ (plant.trackFrame 1 8 .urgent).heliostat = some 8
      ∧ (plant.trackFrame 1 8 .urgent).phase ≠ .solving ∧ g.urgent = [7, 8])
    ∧ (solvingFrame 8 10 .pass).phase = .solving ∧ (plant.trackFrame 1 7 .pass).heliostat ≠ some 8
    ∧ (plant.seg 1).frame = none
    ∧ takes (.retire 8) (plant.modSeg 1 fun g => { g with frame := some (plant.trackFrame 1 8 .urgent), urgent := [7, 8] })
        .done (fun t => ((t.seg 1).frame.any (·.orphaned)) && (t.seg 1).urgent == [7]) = true := by decide +kernel
theorem witness_Assign :
    accepted (.assign 5 31) plant ∧ (plant.hel 5).state = .onTarget ∧ (plant.point 31).valid = true
    ∧ plant.joinZone (plant.hel 5) = 2 ∧ plant.stowInEffect = false
    ∧ accepted (.assign 6 17) plant ∧ (plant.hel 6).state = .queued ∧ plant.assignedZone (plant.hel 6) = 2
    ∧ accepted (.assign 7 17) plant ∧ (plant.hel 7).state = .stowed ∧ (plant.point 17).valid = true
    ∧ accepted (.assign 10 255) plant ∧ (plant.hel 10).state = .offline
    ∧ (let s := { plant with pau := { plant.pau with stowCommand := true } }
     s.stowInEffect = true ∧ accepted (.assign 7 31) s = true ∧ (s.hel 7).state = .stowed) := by decide +kernel
theorem witness_Park :
    accepted (.park 6) plant ∧ (plant.hel 6).state = .queued ∧ accepted (.park 5) plant ∧ (plant.hel 5).state = .onTarget
    ∧ accepted (.park 7) plant ∧ (plant.hel 7).state = .stowed := by decide +kernel
theorem witness_Exclude :
    accepted (.exclude 11) plant ∧ (plant.hel 11).state = .standby ∧ (plant.hel 11).stranded = none
    ∧ (plant.hel 11).departing = false ∧ accepted (.exclude 10) plant ∧ (plant.hel 10).stranded = some ⟨2, 500⟩
    ∧ accepted (.exclude 5) plant ∧ (plant.hel 5).state = .onTarget := by decide +kernel
theorem witness_Include :
    accepted (.includeHel 8) plant ∧ (plant.hel 8).state = .excluded ∧ accepted (.includeHel 5) plant
    ∧ (plant.hel 5).state = .onTarget := by decide +kernel
theorem witness_FaultReleases :
    accepted (.clearFault 9) plant ∧ (plant.hel 9).state = .faulted ∧ accepted (.releaseStranded 10) plant
    ∧ (plant.hel 10).state = .offline ∧ (plant.hel 10).stranded.isSome = true := by decide +kernel
/-- R57: a zone that is OVER by stranded flux, and comes within its limit, or stays above it, by a release. -/
theorem witness_FaultReleases_over :
    (let s := plant.modZone 2 fun z => { z with joinList := [], dispatchLimit := 1, stranded := 1500, state := .over }
     (s.zone 2).state = .over ∧ (s.hel 10).stranded = some ⟨2, 500⟩
      ∧ takes (.releaseStranded 10) s .done (fun t => t.committed 2 == 1000 && (t.zone 2).state == .normal) = true)
    ∧ (let s := plant.modZone 2 fun z => { z with joinList := [], dispatchLimit := 0, state := .over }
     takes (.releaseStranded 10) s .done (fun t => t.committed 2 == 500 && (t.zone 2).state == .over) = true) := by
  decide +kernel
theorem witness_Retire :
    accepted (.retire 8) plant ∧ (plant.hel 8).state = .excluded ∧ (plant.hel 8).stranded = none
    ∧ accepted (.retire 10) plant ∧ (plant.hel 10).stranded.isSome = true := by decide +kernel
/-- R49, check by check: the number, a coordinate, the zone, the alternate four ways, a point in use, a point with
diverted heliostats; and a write of each kind that passes. -/
theorem witness_WriteAimpoint :
    accepted (.writeAimpoint 112 0 0 0 0 0 255) plant ∧ 111 < (112 : Byte).toNat
    ∧ accepted (.writeAimpoint 111 1 1000001 0 0 0 255) plant ∧ 1000000 < (1000001 : BitVec 32).toInt
    ∧ accepted (.writeAimpoint 95 1 0 0 0 12 255) plant ∧ accepted (.writeAimpoint 95 1 0 0 0 0 96) plant
    ∧ accepted (.writeAimpoint 95 1 0 0 0 0 95) plant ∧ (plant.point 94).valid = false ∧ accepted (.writeAimpoint 95 1 0 0 0 0 94) plant
    ∧ (plant.point 31).valid = true ∧ (plant.point 31).zone = 3 ∧ accepted (.writeAimpoint 95 1 0 0 0 3 31) plant
    ∧ accepted (.writeAimpoint 17 0 0 0 0 0 0) plant ∧ (plant.point 17).valid = true ∧ 0 < (plant.point 17).inUse
    ∧ (let s := plant.modPoint 17 fun p => { p with diverted := 1 }
     accepted (.writeAimpoint 17 1 0 0 0 2 255) s ∧ (s.point 17).alternate ≠ none ∧ 0 < (s.point 17).diverted)
    ∧ accepted (.writeAimpoint 95 1 (-1000000) 0 1000000 11 31) plant ∧ (plant.point 95).valid = false
    ∧ (plant.point 95).diverted = 0 ∧ accepted (.writeAimpoint 111 0 0 0 0 0 0) plant := by decide +kernel
theorem witness_SetRamp :
    accepted (.setRamp 11 0) plant ∧ accepted (.setRamp 11 1) plant ∧ accepted (.setRamp 11 32) plant
    ∧ accepted (.setRamp 11 33) plant ∧ accepted (.setRamp 12 4) plant := by decide +kernel
theorem witness_HoldUnhold :
    accepted (.hold 11) plant ∧ accepted (.unhold 11) plant
    ∧ ((plant.modZone 11 fun z => { z with hold := true }).zone 11).hold = true ∧ (plant.zone 11).hold = false := by decide +kernel
theorem witness_LimitWrites :
    accepted (.setProtectLimit 11 0) plant ∧ accepted (.setZone 11 0 255) plant ∧ accepted (.setZone 11 0 96) plant
    ∧ accepted (.setZone 11 0 111) plant ∧ accepted (.setZone 11 0 95) plant ∧ accepted (.setZone 11 0 112) plant := by decide +kernel
theorem witness_SettlementHoldsLimit :
    plant.stowInEffect = false ∧ plant.pau.defocus = false ∧ (plant.hel 6).state ≠ .onTarget
    ∧ ({ plant with pau := { plant.pau with defocus := true } } : State).pau.defocus = true
    ∧ ({ plant with pau := { plant.pau with stowCommand := true } } : State).stowInEffect = true
    ∧ ((plant.modZone 2 fun z => { z with protectLimit := 0 }).settle 2).overLimit 2 = true
    ∧ (let s := (plant.modZone 2 fun z => { z with dispatchLimit := 100, protectLimit := 100, rjMax := 1 })
     [6].Nodup ∧ ∀ i ∈ [6], (s.hel i).state ≠ .onTarget ∧ ((s.settle 2).hel i).state = .onTarget) := by decide +kernel
/-- Zone 2 above its limit, its newest member re-routed to point 31 in zone 3, or returned while defocus is in effect. -/
theorem witness_SettlementHoldsLimit_shed :
    (let s := plant.modZone 2 fun z => { z with protectLimit := 30 }
     s.overLimit 2 = true ∧ (s.zone 2).joinList ≠ [] ∧ (s.zone 2).joinList.getLast? = some 5 ∧ (s.zone 2).joinList.Nodup
      ∧ (s.hel 5).assignment = some 17 ∧ s.joinZone (s.hel 5) = 2 ∧ (s.hel 5).state = .onTarget
      ∧ s.mayReroute (s.hel 5) 17 31)
    ∧ (let s := { plant with pau := { plant.pau with defocus := true } }
     (s.zone 2).joinList.getLast? = some 5 ∧ (s.hel 5).assignment = some 17 ∧ s.joinZone (s.hel 5) = 2
      ∧ (s.hel 5).state = .onTarget ∧ ∀ q, ¬ s.mayReroute (s.hel 5) 17 q) := by
  refine ⟨?_, by decide +kernel, by decide +kernel, by decide +kernel, by decide +kernel, fun q h => ?_⟩
  · simp only [State.mayReroute, State.roomFor]
    decide +kernel
  · exact absurd h.1 (by decide +kernel)
/-- Zone 2 above its limit by its stranded flux alone, and zone 2 with room for the head of its queue. -/
theorem witness_SettlementHoldsLimit_over :
    (let s := plant.modZone 2 fun z => { z with stranded := 50000, joinList := [] }
     s.overLimit 2 = true ∧ (s.zone 2).joinList = [] ∧ (s.zone 2).state ≠ .over)
    ∧ (let s := plant.modZone 2 fun z => { z with dispatchLimit := 100, protectLimit := 100 }
     s.overLimit 2 = false ∧ s.stowInEffect = false ∧ s.pau.defocus = false ∧ (s.zone 2).hold = false
      ∧ (s.zone 2).queue.Nodup ∧ ((s.settle 2).zone 2).joinList = [5, 6] ∧ ((s.settle 2).zone 2).queue = []) := by
  decide +kernel
theorem witness_SetSun :
    accepted (.setSun 22200 (-17700) 16384 1500 4095) plant
    ∧ (1056964608 : Int) ≤ 22200 * 22200 + 17700 * 17700 + 16384 * 16384 ∧ accepted (.setSun (-32768) 0 0 1501 4096) plant
    ∧ accepted (.setSun 0 0 0 0 0) plant ∧ (0 : Int) < 1056964608 := by decide +kernel
theorem witness_SetEpoch :
    accepted (.setEpoch 0) plant ∧ accepted (.setEpoch 1) plant ∧ accepted (.setEpoch 249) plant
    ∧ accepted (.setEpoch 250) plant ∧ plant.epoch.running = false := by decide +kernel
theorem witness_EpochNow :
    accepted .epochNow plant ∧ plant.sweep.inFlight = false ∧ plant.present ≠ [] ∧ accepted .epochNow State.reset
    ∧ State.reset.present = [] ∧ accepted .epochNow { plant with sweep := ⟨true, [], none, 0⟩ } := by decide +kernel
theorem witness_EpochExpiry :
    ({ plant with epoch := ⟨true, 250, none, 1⟩ } : State).epoch.running = true ∧ plant.sweep.inFlight = false
    ∧ plant.present ≠ [] ∧ ({ plant with sweep := ⟨true, [], none, 0⟩ } : State).sweep.inFlight = true
    ∧ (let s : State := { State.reset with epoch := ⟨true, 65535, some 250, 0⟩ }
     s.present = [] ∧ s.sweep.inFlight = false ∧ runs .epochExpiry s (fun t => t.sweep == ⟨false, [], none, 1⟩) = true) := by
  decide +kernel
theorem witness_Stagger :
    accepted (.setStagger 255 255 0) plant ∧ accepted (.setStagger 0 0 255) plant ∧ (255 : BitVec 8) ≠ 0 := by decide +kernel
theorem witness_ReleaseTimerExpiry :
    (plant.setTimer 1 (some 22)).timer (1 : Fin 8) = some 22 ∧ (plant.seg (1 : Fin 8)).state = .idle
    ∧ (plant.setTimer 0 (some 0)).timer (0 : Fin 8) = some 0 ∧ (plant.seg (0 : Fin 8)).state = .disabled
    ∧ ((plant.modSeg 7 fun g => { g with state := .passing }).seg (7 : Fin 8)).state = .passing := by decide +kernel
/-- `plant` with a sweep in flight that visits 5 next, under a snapshot. -/
def sweeping (u : Sun) (s : State) : State := { s with sweep := ⟨true, [5, 6], none, 0⟩, snapshot := some u }

/-- Where a sweep in flight can visit heliostat 5, and how its normal ends. -/
def visits (s : State) (r : Solved → Bool) : Bool :=
  s.sweep.inFlight && s.solveOut.isNone && s.nextSolve.isNone && s.sweep.remaining == [5, 6]
    && r (solveToward s.snapshot (s.hel 5) (s.targetPos (s.currentTarget (s.hel 5))))
    && r (solveToward s.snapshot (s.hel 5) ((s.aimedPoint (s.hel 5)).map fun b => (s.point b).pos))

theorem witness_SweepVisit :
    visits (sweeping workedSun plant) (· == .found ⟨15858, -24930, 14170⟩ 35748) = true
    ∧ visits (sweeping workedSun (plant.modHel 5 fun h => { h with pos := ⟨0, 600, 16000⟩ })) (· == .geometry) = true
    ∧ visits (sweeping { workedSun with s := ⟨-8083, 29907, -10676⟩ } plant) (· == .noSolution) = true
    ∧ visits (sweeping { workedSun with present := false } plant) (· == .unlit) = true
    ∧ plant.currentTarget (plant.hel 7) = .stow ∧ (plant.hel 7).state ≠ .onTarget ∧ (plant.hel 7).assignment = none := by
  decide +kernel
theorem witness_SweepVisit_noSun : ∀ u, (sweeping { workedSun with present := false } plant).snapshot = some u →
    u.present = false := fun u h => by cases h; rfl
theorem witness_SweepComplete :
    (let s := { plant with sweep := ⟨true, [], some 11, 65535⟩ }
     s.sweep.inFlight = true ∧ s.sweep.remaining = [] ∧ s.tablesOk = true ∧ ∀ i ∈ s.present, (s.hel i).segment < 8) := by decide +kernel
/-- Segment 1 waits for the ACU to answer a solve of heliostat `i` asked for at a drop. -/
def asking (i drop : Nat) (taken : Bool) : State :=
  plant.modSeg 1 fun g => { g with frame := some { solvingFrame i drop .pass with taken := taken } }

theorem witness_Solve_taken :
    (asking 7 9 false).solveOut = none ∧ 1 = ((asking 7 9 false).lastServed + 1 + 1) % 8
    ∧ (asking 7 9 false).solving 1 = true ∧ (∀ l < 1, (asking 7 9 false).solving (((asking 7 9 false).lastServed + 1 + l) % 8) = false)
    ∧ ((asking 7 9 false).seg 1).frame = some (solvingFrame 7 9 .pass) ∧ (plant.hel 7).state = .stowed
    ∧ (plant.hel 7).segment = 1 ∧ (plant.hel 7).drop = 9
    ∧ (asking 20 9 false).solving 1 = true ∧ (plant.hel 20).state = .absent
    ∧ (asking 8 10 false).solving 1 = true ∧ (plant.hel 8).state = .excluded
    ∧ (asking 5 8 false).solving 1 = true ∧ (plant.hel 5).drop = 7 := by decide +kernel
theorem witness_Solve_answered :
    (let s := { asking 7 9 true with solveOut := some ⟨1, false⟩ }
     (s.seg 1).frame = some { solvingFrame 7 9 .pass with taken := true } ∧ (s.hel 7).segment = 1 ∧ (s.hel 7).drop = 9
      ∧ (s.hel 7).tag = ⟨s.currentTarget (s.hel 7), true⟩)
    ∧ (let s := { asking 5 7 true with solveOut := some ⟨1, false⟩ }
     (s.hel 5).segment = 1 ∧ (s.hel 5).drop = 7 ∧ (s.hel 5).tag ≠ ⟨s.currentTarget (s.hel 5), true⟩)
    ∧ (let s := { asking 8 10 true with solveOut := some ⟨1, false⟩ }
     (s.seg 1).frame = some { solvingFrame 8 10 .pass with taken := true } ∧ (s.hel 8).state = .excluded)
    ∧ (let s := { plant with solveOut := some ⟨1, false⟩ }
     s.solveOut = some ⟨1, false⟩ ∧ (s.seg 1).frame = none) := by decide +kernel
theorem witness_SquareRoot : workedSun.present = true ∧ ({ workedSun with present := false } : Sun).present = false := by
  decide
/-- R29, row by row. -/
theorem witness_SquareRoot_target :
    (let s := plant.modZone 2 fun z => { z with standby := some 96 }
     s.pau.asserted = false ∧ s.pau.stowCommand = false
      ∧ s.currentTarget (s.hel 5) = .point 17 ∧ s.currentTarget { s.hel 5 with onAlternate := true } = .point 31
      ∧ s.currentTarget (s.hel 6) = .point 96 ∧ s.currentTarget (s.hel 11) = .point 96
      ∧ s.currentTarget { s.hel 10 with assignment := some 17 } = .point 96 ∧ s.currentTarget (s.hel 10) = .stow
      ∧ s.currentTarget (s.hel 8) = .stow)
    ∧ (let s := plant.modZone 2 fun z => { z with standby := some 97 }
     (s.point 97).valid = false ∧ s.currentTarget (s.hel 6) = .stow)
    ∧ plant.currentTarget (plant.hel 6) = .stow
    ∧ ({ plant with pau := { plant.pau with asserted := true } } : State).currentTarget (plant.hel 5) = .stow := by
  decide +kernel
theorem witness_SetLink :
    accepted (.setLink 7 1 2 0 0 0 16 29999) plant ∧ rateOf 2 = some .slow ∧ (plant.seg 7).state = .disabled
    ∧ accepted (.setLink 1 0 0 1 1 1 15 30000) plant ∧ rateOf 0 = some .fast ∧ (plant.seg 1).state = .idle
    ∧ accepted (.setLink 7 0 0 1 1 1 15 30000) plant ∧ accepted (.setLink 1 255 0 1 1 1 15 30000) plant := by decide +kernel
theorem witness_RestartSegment :
    accepted (.restartSegment 7) plant ∧ accepted (.restartSegment 1) plant
    ∧ (let s := plant.modSeg 1 fun g => { g with head := 15, count := 16 }
     (s.seg 1).head ≤ 15 ∧ (s.seg 1).count ≤ 16 ∧ takes (.restartSegment 1) s .done (fun t =>
      (t.seg 1).head == 15 && ((t.seg 1).slot 14).result == .cancelled && ((t.seg 1).slot 14).owner == .dispatch) = true)
    ∧ ({ plant with pau := { plant.pau with stowCommand := true } } : State).stowInEffect = true := by decide +kernel
theorem witness_PostMaint :
    accepted (.postMaint 7 1999 0x11 0) plant ∧ (plant.seg 7).count < 16 ∧ accepted (.postMaint 8 0 0x11 0) plant
    ∧ accepted (.postMaint 0 2000 0x14 0) plant ∧ accepted (.postMaint 0 0 0x10 0) plant
    ∧ accepted (.postMaint 0 0 0x15 0) plant ∧ 16 ≤ ((plant.modSeg 0 fun g => { g with count := 16 }).seg 0).count := by decide +kernel
/-- Segment 1 with a maintenance record at its ring's head. -/
def ringed (i : Nat) (a : Action) : State :=
  plant.modSeg 1 fun g => { g with count := 1, slots := [(0, ⟨.part, i, a, [0, 0, 0, 0, 0x7F, 0xFF], .none, none⟩)] }

theorem witness_NextItemTaken :
    (plant.seg (1 : Fin 8)).frame = none ∧ (plant.seg (1 : Fin 8)).state = .idle
    ∧ (let s := plant.modSeg 1 fun g => { g with urgent := [7] }
     (s.seg 1).owed = false ∧ (s.seg 1).urgent = 7 :: [] ∧ (s.hel 7).segment = 1
      ∧ (s.hel 7).tag = ⟨s.currentTarget (s.hel 7), true⟩)
    ∧ (let s := plant.modSeg 1 fun g => { g with urgent := [5] }
     (s.seg 1).urgent = 5 :: [] ∧ (s.hel 5).segment = 1 ∧ (s.hel 5).tag ≠ ⟨s.currentTarget (s.hel 5), true⟩)
    ∧ ((plant.modSeg 1 fun g => { g with owed := true }).seg 1).owed = true := by decide +kernel
theorem witness_NextItemTaken_maint :
    (let g := (ringed 8 .move).seg 1
     g.owed = false ∧ g.urgent = [] ∧ 0 < g.count ∧ g.state ≠ .passing ∧ g.slot g.head = ⟨.part, 8, .move, [0, 0, 0, 0, 0x7F, 0xFF], .none, none⟩)
    ∧ (plant.hel 8).state = .excluded ∧ (plant.hel 8).segment = 1 ∧ plant.stowInEffect = false ∧ plant.pau.defocus = false
    ∧ (ringed 20 .status).hel 20 = Hel.empty ∧ ((ringed 5 .move).hel 5).state = .onTarget
    ∧ (let g := ((ringed 5 .status).modSeg 1 fun g => { g with state := .passing, turn := true }).seg 1
     g.state = .passing ∧ g.turn = true ∧ 0 < g.count) := by decide +kernel
theorem witness_NextItemTaken_pass :
    (let s := plant.modSeg 1 fun g => { g with state := .passing }
     s.tablesOk = true ∧ (s.seg 1).state = .passing ∧ (s.seg 1).urgent = [] ∧ (s.seg 1).count = 0 ∧ (s.seg 1).passPos = none
      ∧ (s.hel 5).segment = 1 ∧ (s.hel 5).state = .onTarget ∧ ∀ j ∈ s.present, j ≠ 5 → (s.hel 5).drop < (s.hel j).drop)
    ∧ (let s := plant.modSeg 1 fun g => { g with state := .passing, passPos := some 13, pendingRelease := true }
     (s.seg 1).state = .passing ∧ (s.seg 1).pendingRelease = true ∧ ∀ i ∈ s.present, (s.hel i).drop ≤ 13)
    ∧ (let s := plant.modSeg 1 fun g => { g with state := .passing, passPos := some 250 }
     (s.seg 1).state = .passing ∧ (s.seg 1).pendingRelease = false ∧ ∀ i ∈ s.present, (s.hel i).drop ≤ 250) := by
  decide +kernel
theorem witness_SendAndWait :
    (let s := plant.modSeg 1 fun g => { g with frame := some (broadcastFrame .fast) }
     (s.seg (1 : Fin 8)).frame = some (broadcastFrame .fast) ∧ (broadcastFrame .fast).phase = .sending
      ∧ (broadcastFrame .fast).kind = some .stow ∧ (broadcastFrame .fast).rate = some .fast
      ∧ (broadcastFrame .fast).payload.length = 6 ∧ (s.seg 1).txAt 129 = some .stop ∧ (s.seg 1).txAt 130 = none)
    ∧ ((hunting 0).seg (1 : Fin 8)).frame = some (awaited 0 false) ∧ (awaited 0 false).phase = .awaiting
    ∧ (awaited 0 false).receiving = false ∧ 999 < (awaited 0 false).remaining ∧ (awaited 0 false).remaining ≤ 1000
    ∧ ((0x80 : Byte) ≠ 0x7E ∧ (0x80 : Byte) ≠ 0x81) := by decide +kernel

/-- A frame of segment 1 that awaits a reply meets a reception of these bytes: what its fields say of the frame. -/
def meets (f : Frame) (bytes : List Byte) (p : ReplyFields → Bool) : Bool :=
  (f.phase == .awaiting) && f.receiving && bytes.take 2 == [0x7E, 0xA5] && (replyFields (bytes.drop 2)).any p

/-- The frame of a TRACK or maintenance dialogue of segment 1 that awaits its reply. -/
def awaiting (i : Nat) (o : Origin) (t : Option Target) : Frame :=
  { (plant.trackFrame 1 i o).await 1000 with receiving := true, target := t }

theorem witness_GoodReply :
    ((waiting 0).seg (1 : Fin 8)).frame = some (awaited 0 true)
    ∧ goodBytes.map ((waiting 0).seg 1).receive = 0x7E :: 0xA5 :: goodBytes.drop 2
    ∧ (awaited 0 true).orphaned = false ∧ (awaited 0 true).heliostat = some 7
    ∧ meets (awaited 0 true) goodBytes (fun r => r.sound && r.answers (awaited 0 true) && r.motion == some .stowed) = true
    ∧ meets { awaited 0 true with orphaned := true, origin := .maint } goodBytes (fun r => r.sound) = true := by decide +kernel
/-- An ON_TARGET heliostat that points as carried, one that deviates, one that reports a fault code, and one whose
drive is HALTED. -/
theorem witness_GoodReply_onTarget :
    (plant.hel 5).state = .onTarget ∧ (awaiting 5 .pass (some (.point 17))).normal = some ⟨0, 0, 32767⟩
    ∧ meets (awaiting 5 .pass (some (.point 17))) (replyBytes [7, 0x01, 0x21, 0, 0, 0, 0, 0, 0x7F, 0xFF])
      (fun r => r.sound && r.answers (awaiting 5 .pass (some (.point 17))) && r.fault == 0
        && !deviates plant.link.ptol ⟨0, 0, 32767⟩ (components r.x r.y r.z)) = true
    ∧ meets (awaiting 5 .pass (some (.point 17))) (replyBytes [7, 0x01, 0x21, 0, 0x7F, 0xFF, 0, 0, 0, 0])
      (fun r => r.sound && r.answers (awaiting 5 .pass (some (.point 17)))
        && deviates plant.link.ptol ⟨0, 0, 32767⟩ (components r.x r.y r.z)) = true
    ∧ meets (awaiting 5 .pass (some (.point 17))) (replyBytes [7, 0x01, 0x41, 0, 0, 0, 0, 0, 0x7F, 0xFF])
      (fun r => r.sound && r.answers (awaiting 5 .pass (some (.point 17))) && r.motion == some .halted) = true
    ∧ min 15 ((plant.hel 5).dev + 1) < plant.link.devLimit
    ∧ plant.link.devLimit ≤ min 15 (((plant.modHel 5 fun h => { h with dev := 2 }).hel 5).dev + 1) := by decide +kernel
/-- A FAULTED heliostat with a stranded amount whose departure a reply acknowledges keeps the amount. -/
theorem witness_GoodReply_faulted :
    (plant.hel 9).state = .faulted ∧ (plant.hel 9).departing = true ∧ (plant.hel 9).stranded = some ⟨2, 500⟩
    ∧ meets (awaiting 9 .urgent (some .stow)) (replyBytes [11, 0x02, 0x31, 0, 0, 0, 0, 0, 0x7F, 0xFF])
      (fun r => r.sound && r.answers (awaiting 9 .urgent (some .stow)) && r.fault == 0) = true := by decide +kernel
/-- An OFFLINE heliostat with a stranded amount whose departure a reply acknowledges, and a QUEUED one with a fault. -/
theorem witness_GoodReply_offline :
    (let s := plant.modHel 10 fun h => { h with departing := true, departureZone := some 2 }
     (s.hel 10).state = .offline ∧ (s.hel 10).departing = true ∧ (s.hel 10).stranded = some ⟨2, 500⟩)
    ∧ meets (awaiting 10 .urgent (some .stow)) (replyBytes [12, 0x02, 0x31, 0, 0, 0, 0, 0, 0x7F, 0xFF])
      (fun r => r.sound && r.answers (awaiting 10 .urgent (some .stow)) && r.fault == 0) = true
    ∧ (plant.hel 10).stranded ≠ none ∧ (plant.hel 10).departing = false
    ∧ (plant.hel 6).state = .queued ∧ meets (awaiting 6 .pass (some .stow)) (replyBytes [8, 0x02, 0x31, 15, 0, 0, 0, 0, 0x7F, 0xFF])
      (fun r => r.sound && r.answers (awaiting 6 .pass (some .stow)) && r.fault == 15) = true := by decide +kernel
theorem witness_BadReceptions :
    ((hunting 3).seg (1 : Fin 8)).frame = some (awaited 3 false) ∧ (awaited 3 false).receiving = false
    ∧ ((waiting 2).seg (1 : Fin 8)).frame = some (awaited 2 true) ∧ (awaited 2 true).receptions < 3
    ∧ ((waiting 3).seg (1 : Fin 8)).frame = some (awaited 3 true) ∧ (awaited 3 true).receptions = 3
    ∧ meets (awaited 2 true) staleBytes (fun r => r.sound && !r.answers (awaited 2 true)) = true
    ∧ meets (awaited 2 true) ([0x7E, 0xA5, 0] ++ staleBytes.drop 3) (fun r => !r.crcOk) = true
    ∧ meets (awaited 2 true) (replyBytes [9, 0x02, 0x01, 0, 0, 0, 0, 0, 0x7F, 0xFF]) (fun r => r.seqMotion.toNat / 16 == 0) = true
    ∧ meets (awaited 2 true) (replyBytes [9, 0x02, 0x51, 0, 0, 0, 0, 0, 0x7F, 0xFF]) (fun r => 4 < r.seqMotion.toNat / 16) = true
    ∧ meets (awaited 2 true) (replyBytes [9, 0x02, 0x31, 16, 0, 0, 0, 0, 0x7F, 0xFF]) (fun r => 15 < r.fault.toNat) = true
    ∧ ((plant.modSeg 1 fun g => { g with errorRun := 7 }).seg 1).errorRun = 7 := by decide +kernel
/-- With the latch INVERTED: a drive of normal polarity, and a marker that reads 0x81, 0x5A after the complement. -/
theorem witness_BadReceptions_latched :
    (let s := (waiting 2).modSeg 1 fun g => { g with inverted := true, rate := .slow, errorRun := 7 }
     (s.seg 1).inverted = true ∧ (s.seg (1 : Fin 8)).frame = some (awaited 2 true) ∧ (s.seg 1).rate = .slow
      ∧ goodBytes = 0x7E :: 0xA5 :: goodBytes.drop 2 ∧ (replyFields (goodBytes.drop 2)).any (·.crcOk) = true
      ∧ goodBytes.map (s.seg 1).receive = 0x81 :: 0x5A :: (goodBytes.drop 2).map (~~~·)
      ∧ (replyFields ((goodBytes.drop 2).map (~~~·))).any (fun r => !r.crcOk) = true
      ∧ runs (.receptionComplete 1 goodBytes) s (fun t => (t.seg 1).errorRun == 0 && !t.dPending .rateFallback) = true) := by
  decide +kernel
theorem witness_BadReceptions_inverted :
    ((waiting 0).seg 1).inverted = false ∧ (goodBytes.map (~~~·)).take 2 = [0x81, 0x5A]
    ∧ (replyFields (((goodBytes.map (~~~·)).drop 2).map (~~~·))).any (fun r => r.sound) = true
    ∧ (replyFields ((0 :: (goodBytes.map (~~~·)).drop 3).map (~~~·))).any (fun r => !r.sound) = true
    ∧ ((waiting 0).seg 1).invertedRun < 3
    ∧ 3 ≤ (((waiting 0).modSeg 1 fun g => { g with invertedRun := 3 }).seg 1).invertedRun := by decide +kernel
theorem witness_ReplyTimeout :
    ((hunting 0).seg (1 : Fin 8)).frame = some (awaited 0 false) ∧ (awaited 0 false).phase = .awaiting
    ∧ (awaited 0 false).receiving = false ∧ (awaited 0 false).orphaned = false ∧ (awaited 0 false).heliostat = some 7
    ∧ min 15 (((hunting 0).hel 7).miss + 1) < (hunting 0).link.missLimit
    ∧ (let s := (hunting 0).modHel 7 fun h => { h with miss := 2 }
     s.link.missLimit ≤ min 15 ((s.hel 7).miss + 1) ∧ (s.hel 7).state = .stowed)
    ∧ (let s := plant.modSeg 1 fun g => { g with frame := some ((plant.trackFrame 1 5 .maint).await 1000) }
     let u := s.modHel 5 fun h => { h with miss := 14 }
     ((u.seg 1).frame.bind (·.heliostat)) = some 5 ∧ (u.hel 5).state = .onTarget
      ∧ ((u.seg 1).frame.any fun f => f.origin == .maint && f.receptions < 4 && !f.receiving) = true)
    ∧ (let s := plant.modSeg 1 fun g => { g with frame := some { awaited 0 false with orphaned := true } }
     runs (.replyTimeout 1) s (fun t => t.hels == s.hels && (t.seg 1).missed == (s.seg 1).missed) = true) := by decide +kernel
theorem witness_BabbleLock :
    (plant.seg (1 : Fin 8)).state ≠ .disabled ∧ (plant.seg (1 : Fin 8)).state ≠ .locked
    ∧ (plant.seg (1 : Fin 8)).driverEnable = false
    ∧ (let s := plant.modSeg 7 fun g => { g with state := .locked, quietLeft := some 0 }
     (s.seg (7 : Fin 8)).state = .locked ∧ (s.seg (7 : Fin 8)).quietLeft = some 0) := by decide +kernel
theorem witness_SetShade :
    accepted (.setShade 0 256 0 0 0x0808080808080801) plant ∧ accepted (.setShade 0 257 0 1 0x0008080808080801) plant
    ∧ (let s := { plant with ms := 1001 }.modChannel 0 fun c => { c with state := .shaded }
     (s.channel 0).state = .shaded ∧ 1 * 1000 < since s.ms (s.channel 0).shadeStart) := by decide +kernel
theorem witness_SensorSample :
    (true = ((plant.channel (7 : Fin 8)).state == .sunlit)) ∧ (plant.channel (7 : Fin 8)).cand = none ∧ plant.scu.qual ≠ 0
    ∧ (let s := { plant with ms := 1 }.modChannel 0 fun c => { c with cand := some ⟨0, 50⟩ }
     (s.channel 0).cand = some ⟨0, 50⟩ ∧ since s.ms 0 < since (50 : Millis) 0)
    ∧ (let s := { plant with scu := { plant.scu with qual := 0 } }
     false ≠ ((s.channel (7 : Fin 8)).state == .sunlit) ∧ (s.channel (7 : Fin 8)).cand = none ∧ s.scu.qual = 0
      ∧ runs (.shadowSensorChange 7 false) s (fun t => (t.channel 7).state == .shaded) = true)
    ∧ (let s := { plant with ms := 50 }.modChannel 7 fun c => { c with cand := some ⟨0, 50⟩, state := .stuck }
     true ≠ ((s.channel (7 : Fin 8)).state == .sunlit) ∧ (s.channel (7 : Fin 8)).cand = some ⟨0, 50⟩
      ∧ since (50 : Millis) 0 ≤ since s.ms 0) := by decide +kernel
theorem witness_ShadowEvents :
    (let s := plant.modChannel 7 fun c => { c with cand := some ⟨0, 50⟩ }
     (s.channel (7 : Fin 8)).state = .sunlit ∧ (s.channel (7 : Fin 8)).cand = some ⟨0, 50⟩)
    ∧ (let s := plant.modChannel 7 fun c => { c with cand := some ⟨0, 50⟩, state := .stuck }
     (s.channel (7 : Fin 8)).state ≠ .sunlit ∧ (s.channel (7 : Fin 8)).cand = some ⟨0, 50⟩)
    ∧ (let s := { plant with scu := { plant.scu with shadeMax := 1 } }.modChannel 0 fun c => { c with state := .shaded }
     (s.channel (0 : Fin 8)).state = .shaded ∧ s.scu.shadeMax ≠ 0) := by decide +kernel
theorem witness_StowCommands :
    accepted .stow plant ∧ accepted .unstow plant ∧ plant.stowInEffect = false
    ∧ ({ plant with pau := { plant.pau with stowCommand := true } } : State).pau.stowCommand = true := by decide +kernel
theorem witness_StowLine :
    plant.pau.lineCand = none ∧ (true = !plant.pau.asserted)
    ∧ ({ plant with pau := { plant.pau with lineCand := some ⟨0, 20⟩ } } : State).pau.lineCand = some ⟨0, 20⟩
    ∧ since (19 : Millis) 0 < since (20 : Millis) 0 ∧ plant.pau.stowCommand = false ∧ plant.pau.asserted = false
    ∧ (let s := { plant with ms := 20, pau := { plant.pau with lineCand := some ⟨0, 20⟩ } }
     s.pau.lineCand = some ⟨0, 20⟩ ∧ since (20 : Millis) 0 ≤ since s.ms 0 ∧ s.pau.asserted = false
      ∧ runs (.stowLineChange false) s (fun t => t.pau.asserted && (t.hel 5).state == .stowed) = true) := by decide +kernel
theorem witness_Defocus :
    accepted .fieldDefocus plant ∧ accepted .fieldRelease plant ∧ plant.pau.defocus = false
    ∧ accepted .fieldRelease { plant with pau := { plant.pau with defocus := true } } := by decide +kernel
theorem witness_ProtectionTimers :
    accepted (.setDeadline 0) plant ∧ accepted (.setDeadline 600) plant ∧ accepted (.setDeadline 601) plant
    ∧ accepted (.supervise 0) plant ∧ accepted (.supervise 255) plant
    ∧ ({ plant with pau := { plant.pau with deadlineLeft := some 0 } } : State).pau.deadlineLeft = some 0
    ∧ ({ plant with pau := { plant.pau with supLeft := some 2550 } } : State).pau.supLeft = some 2550
    ∧ 0 < plant.departingCount := by decide +kernel
/-- The dispatch port of `plant`, selected, with a transaction record. -/
def clocking (x : Txn) : State := { plant with dpt := x, pins := { plant.pins with dselLow := true } }

/-- A record of the dispatch port at the start of a byte that it shifts out. -/
def shifting (x : Txn) : Bool :=
  let s := clocking { x with out := x.outByte.getLsbD 7 }
  s.selectLow .dispatch && (s.txn .dispatch).bitCount == 0 && !(s.txn .dispatch).high
    && (s.txn .dispatch).out == (s.txn .dispatch).outByte.getLsbD 7

theorem witness_WireRoundTrip :
    wire (.setMask .protection 255) = some ⟨.protection, 0x03, [255]⟩ ∧ (Instr.setMask .protection 255).wellFormed = true
    ∧ wire (.unknownCommand .dispatch 0x05) = some ⟨.dispatch, 0x05, []⟩
    ∧ (Instr.unknownCommand .dispatch 0x05).wellFormed = true
    ∧ (clocking { Txn.reset with phase := .command }).selectLow .dispatch = true
    ∧ (msbFirst 0xA5).length = 8 ∧ (plant.txn .dispatch).phase = .deselected
    ∧ shifting { Txn.reset with phase := .completion, completion := some .unknown } = true
    ∧ shifting { Txn.reset with phase := .completion, completion := some .done, object := [1, 2] } = true
    ∧ shifting { Txn.reset with phase := .data, completion := some .done, object := [1, 2] } = true
    ∧ shifting { Txn.reset with phase := .data, completion := some .done, object := [1, 2], position := 1 } = true
    ∧ shifting { Txn.reset with
        phase := .data, completion := some .done, object := [1, 2], position := 1, cursor := some (.zone 11) } = true
    ∧ shifting { Txn.reset with phase := .fill } = true := by decide +kernel

/-! ### A state that meets the invariants -/

/-- Beyond the seven heliostats listed, `plant` holds empty records. -/
theorem plant_hel (i : Nat) : (5 ≤ i ∧ i ≤ 11) ∨ plant.hel i = Hel.empty := by
  by_cases h : 5 ≤ i ∧ i ≤ 11
  · exact .inl h
  · right
    simp only [State.hel, plant, Tab.get]
    repeat rw [if_neg (by omega)]

theorem plant_point (p : Nat) :
    p = 17 ∨ p = 31 ∨ p = 96 ∨ (p ≠ 17 ∧ p ≠ 31 ∧ plant.point p = Point.reset) := by
  by_cases h : p = 17 ∨ p = 31 ∨ p = 96
  · tauto
  · refine .inr (.inr (.inr ⟨by omega, by omega, ?_⟩))
    simp only [State.point, plant, Tab.get]
    repeat rw [if_neg (by omega)]

theorem plant_zone (z : Nat) : z = 2 ∨ z = 3 ∨ plant.zone z = Zone.reset := by
  by_cases h : z = 2 ∨ z = 3
  · tauto
  · right; right
    simp only [State.zone, plant, Tab.get]
    repeat rw [if_neg (by omega)]

theorem plant_recordBooked (i : Nat) : plant.recordBooked (plant.hel i) := by
  rcases plant_hel i with ⟨h, k⟩ | h
  · interval_cases i <;> (simp only [State.recordBooked]; decide +kernel)
  · rw [h]
    simp only [State.recordBooked]
    decide +kernel

theorem plant_pointBooked (p : Nat) : plant.pointBooked p := by
  rcases plant_point p with rfl | rfl | rfl | h
  · simp only [State.pointBooked]; decide +kernel
  · simp only [State.pointBooked]; decide +kernel
  · simp only [State.pointBooked]; decide +kernel
  · obtain ⟨h17, h31, e⟩ := h
    rw [State.pointBooked, e]
    refine ⟨by decide, by decide, by decide, ?_, ?_, ?_⟩ <;>
      simp [Point.reset, State.tally, State.alternateOf, State.point, plant, Tab.get, one, Hel.empty, Ne.symm h17, Ne.symm h31]

theorem plant_zoneBooked (z : Nat) : plant.zoneBooked z := by
  have hel : ∀ i, (plant.hel i).state = .onTarget ↔ i = 5 := fun i => by
    rcases plant_hel i with ⟨h, k⟩ | h
    · interval_cases i <;> decide +kernel
    · rw [h]
      refine ⟨fun k => (by cases k), fun k => ?_⟩
      subst k
      exact absurd h (by decide +kernel)
  have que : ∀ i, (plant.hel i).state = .queued ↔ i = 6 := fun i => by
    rcases plant_hel i with ⟨h, k⟩ | h
    · interval_cases i <;> decide +kernel
    · rw [h]
      refine ⟨fun k => (by cases k), fun k => ?_⟩
      subst k
      exact absurd h (by decide +kernel)
  have j5 : plant.joinZone (plant.hel 5) = 2 := by decide +kernel
  have q6 : plant.assignedZone (plant.hel 6) = 2 := by decide +kernel
  by_cases h2 : z = 2
  · subst h2
    refine ⟨by decide, by decide, fun i => ?_, fun i => ?_, by decide +kernel, by decide +kernel⟩
    · rw [hel]
      exact ⟨fun k => by simp_all [plant, State.zone, Tab.get], fun ⟨k, _⟩ => by subst k; decide⟩
    · rw [que]
      exact ⟨fun k => by simp_all [plant, State.zone, Tab.get], fun ⟨k, _⟩ => by subst k; decide⟩
  · have c : (plant.zone z).joinList = [] ∧ (plant.zone z).queue = [] ∧ (plant.zone z).pendingDepartures = 0
        ∧ (plant.zone z).stranded = 0 := by
      rcases plant_zone z with h | h | h
      · exact absurd h h2
      · subst h; decide
      · rw [h]; decide
    rw [State.zoneBooked, c.1, c.2.1, c.2.2.1, c.2.2.2]
    refine ⟨by decide, by decide, fun i => ?_, fun i => ?_, ?_, ?_⟩
    · rw [hel]
      exact ⟨fun k => by simp at k, fun ⟨k, e⟩ => by subst k; omega⟩
    · rw [que]
      exact ⟨fun k => by simp at k, fun ⟨k, e⟩ => by subst k; omega⟩
    · simp [State.tally, plant, Hel.empty, one, Ne.symm h2]
    · simp [State.tally, plant, Hel.empty, Hel.strandedIn, Ne.symm h2]

/-- `plant` keeps its books, and every zone of it is within its limit. -/
theorem plant_booksOk : plant.booksOk :=
  ⟨by decide +kernel, plant_recordBooked, plant_pointBooked, plant_zoneBooked, fun i h => by
    rcases plant_hel i with ⟨_, k⟩ | e
    · omega
    · exact absurd (by rw [e]; rfl) h, by decide⟩

theorem plant_zonesSafe : plant.zonesSafe := by unfold State.zonesSafe State.zoneSafe; decide +kernel

theorem plant_addressesUnique : plant.addressesUnique := by
  have d : ∀ i, (plant.hel i).state ≠ .absent → (plant.hel i).drop = i + 2 := fun i h => by
    rcases plant_hel i with ⟨_, _⟩ | e
    · interval_cases i <;> decide +kernel
    · exact absurd (by rw [e]; rfl) h
  intro i j hi hj _ hd
  rw [d i hi, d j hj] at hd
  omega

theorem plant_recordsOk : plant.recordsOk := by
  refine ⟨fun i => ?_, by decide, fun _ h => (by cases h)⟩
  rcases plant_hel i with ⟨_, _⟩ | h
  · simp only [Hel.inRange, Vec3.within]
    interval_cases i <;> decide +kernel
  · rw [h]
    simp only [Hel.inRange, Vec3.within]
    decide +kernel

/-- Stow is released where a STOWED heliostat has no assignment (7), and one has its TRACKING_ERROR set (11). -/
theorem witness_StowReleased :
    (let s := ({ plant with pau := { plant.pau with stowCommand := true } } : State).modHel 11 fun h =>
       { h with state := .stowed, trackingError := true }
     (s.hel 7).state = .stowed ∧ (s.hel 7).assignment = none ∧ (s.hel 11).state = .stowed
      ∧ (s.hel 11).assignment.isSome = true ∧ (s.hel 11).trackingError = true
      ∧ takes .unstow s .done (fun t => (t.hel 7).state == .stowed && (t.hel 11).state == .stowed) = true)
    ∧ ∀ z, 7 ∉ (plant.zone z).joinList ∧ 7 ∉ (plant.zone z).queue :=
  ⟨by decide +kernel, fun z => ⟨fun h => absurd ((plant_booksOk.2.2.2.1 z).2.2.1 7 |>.1 h).1 (by decide +kernel),
    fun h => absurd ((plant_booksOk.2.2.2.1 z).2.2.2.1 7 |>.1 h).1 (by decide +kernel)⟩⟩

theorem witness_SettleAllHoldsLimits : plant.booksOk ∧ plant.recordsOk ∧ plant.zonesSafe
    ∧ steps (.setProtectLimit 2 30) (onPort (.setProtectLimit 2 30) plant) (fun t => (t.zone 3).joinList == [5]) = true :=
  ⟨plant_booksOk, plant_recordsOk, plant_zonesSafe, by decide +kernel⟩

/-- An empty field keeps its books, with an expiry of the epoch timer due. -/
theorem witness_EpochExpiry_books :
    ({ State.reset with epoch := ⟨true, 250, none, 0⟩ } : State).booksOk := by
  refine ⟨by decide, fun i => ?_, fun p => ?_, fun z => ?_, fun i h => absurd rfl h, by decide⟩
  · change State.recordBooked _ Hel.empty
    simp only [State.recordBooked]
    decide
  · exact ⟨Nat.zero_lt_succ 11, fun _ h => (by cases h), fun _ => ⟨rfl, rfl⟩, rfl, rfl, rfl⟩
  · exact ⟨List.nodup_nil, List.nodup_nil, fun i => ⟨fun h => (by cases h), fun h => (by cases h.1)⟩,
      fun i => ⟨fun h => (by cases h), fun h => (by cases h.1)⟩, rfl, rfl⟩

theorem witness_TablesStayCanonical : plant.tablesOk = true ∧ plant.addressesUnique
    ∧ steps (.writeHeliostat 7 2 9 0 0 0 1 0) (onPort (.writeHeliostat 7 2 9 0 0 0 1 0) plant) (fun t => (t.hel 7).segment == 2)
      = true := ⟨by decide +kernel, plant_addressesUnique, by decide +kernel⟩

theorem witness_FieldClearStaysTrue : plant.clearOk ∧ plant.booksOk
    ∧ steps .pinReset plant (fun t => t.pau.fieldClear) = true :=
  ⟨by unfold State.clearOk; decide +kernel, plant_booksOk, by decide +kernel⟩

theorem witness_RiseRaisesComplete :
    (let s := { plant with zones := [], pending := [.clearFault 9], dpt := { Txn.reset with phase := .command } }
     s.pending.head? ≠ some .pinReset ∧ s.pau.fieldClear = false
      ∧ (match step s with | .next t => t.pau.fieldClear | _ => false) = true) := by decide +kernel

/-- The state after pin reset, a millisecond later. -/
def clocked : State := { State.reset with ms := 1 }

theorem witness_SettingsStayInRange : clocked.unitsOk ∧ clocked.blocksOk
    ∧ steps (.setRamp 2 40) (onPort (.setRamp 2 40) clocked) (fun t => (t.zone 2).rjMax == 32) = true := by
  refine ⟨?_, ⟨fun z => ?_, fun k => ?_, fun k => ?_⟩, by decide +kernel⟩
  · refine ⟨by decide, by decide, by decide, by decide, by decide, fun _ h => ?_, by decide, by decide, fun _ h => ?_,
      by decide, by decide, by decide, by decide, by decide, by decide, by decide, by decide, by decide,
      fun _ h => ?_, fun _ h => ?_, by decide, by decide, fun _ _ h => ?_⟩ <;> cases h
  · rw [show clocked.zone z = Zone.reset from rfl]
    decide
  · rw [show clocked.seg k = Seg.reset from rfl]
    exact ⟨by decide, by decide, by decide, by decide, by decide, by decide, by decide, by decide, by decide,
      fun _ h => (by cases h), fun _ h => (by cases h)⟩
  · rw [show clocked.channel k = Channel.reset from rfl]
    decide

theorem witness_RecordsStayInRange : clocked.recordsOk
    ∧ steps (.writeHeliostat 5 0 1 0 0 0 65535 1024) (onPort (.writeHeliostat 5 0 1 0 0 0 65535 1024) clocked)
        (fun t => (t.hel 5).area == 65535) = true := by
  refine ⟨⟨fun i => ?_, by decide, fun _ h => by cases h⟩, by decide +kernel⟩
  rw [show clocked.hel i = Hel.empty from rfl]
  refine ⟨by decide, by decide, ⟨by decide, by decide, by decide⟩, ⟨by decide, by decide, by decide⟩, fun _ h => (by cases h), by decide⟩

theorem witness_ProtectionSettingsIsolated :
    (∀ c, ({ plant with pending := [.stow] } : State).pending.head? = some c →
      c ≠ .pinReset ∧ ∀ w, wire c = some w → w.port = .dispatch)
    ∧ steps .stow (onPort .stow plant) (fun t => t.stowInEffect) = true := by
  refine ⟨fun c h => ?_, by decide +kernel⟩
  cases h
  exact ⟨by decide, fun w h => by cases h; rfl⟩

end Sys2Proof.Tests
end

section
/-! PROOFS. The sun source: what a delivered SET_SUN writes (R2 to R5). -/

namespace Sys2Proof.Machine

/-! ### Its operands -/

/-- The limit of R2 changes −32768 alone. -/
theorem component_eq (w : BitVec 16) : component w = if w.toInt = -32768 then -32767 else w.toInt := by
  have hlo : -32768 ≤ w.toInt := w.le_toInt
  unfold component
  split <;> omega

theorem sunAccepted_iff (x y z : Int) :
    sunAccepted ⟨x, y, z⟩ = true ↔
      1056964608 ≤ x * x + y * y + z * z ∧ x * x + y * y + z * z ≤ 1090519040 := by
  simp only [sunAccepted, Bool.and_eq_true, decide_eq_true_eq]
  rfl

theorem sunLimited_iff (sx sy sz dni atc : BitVec 16) :
    sunLimited sx sy sz dni atc = true ↔
      1500 < dni.toNat ∨ 4095 < atc.toNat ∨ sx.toInt = -32768 ∨ sy.toInt = -32768 ∨ sz.toInt = -32768 := by
  simp [sunLimited, componentLimited, or_assoc]

/-! ### Its delivery -/

/-- `deliver_taken` for an instruction whose meaning is a delivery, with what is left written as a change `v` of `s`
itself and not of `s` with the command's bytes received. -/
theorem exec_taken {c : Instr} {w : WireCmd} (hw : wire c = some w) {act : State → State × Code} {s u v : State}
    {code : Code} (hr : s.accepts c = true) (hc : exec c s = deliver c act s)
    (ha : act (s.setTxn w.port (Txn.received w)) = (u, code))
    (ht : u.txn (otherPort w.port) = s.txn (otherPort w.port)) (hs : u.pau.supLeft = s.pau.supLeft)
    (hb : u.bare = v.bare) :
    ∃ t, exec c s = .next t ∧ Delivered s t w.port code ∧ t.bare = v.bare := by
  rw [hc, ← hb]
  exact deliver_taken hw hr ha ht hs

/-- Which dispatch events are pending is not written by a delivery. -/
theorem State.dPending_of_bare_eq {t u : State} (h : t.bare = u.bare) (e : DEvent) :
    t.dPending e = u.dPending e :=
  congrArg (·.dPending e) h

section
variable (sx sy sz dni atc : BitVec 16)

/-- SET_SUN of an accepted vector is the delivery of a write of the sun source, DNI and ATC limited (R3, R4). -/
theorem exec_setSun_of_accepted (ha : sunAccepted (components sx sy sz) = true) (s : State) :
    exec (.setSun sx sy sz dni atc) s = deliver (.setSun sx sy sz dni atc) (fun t =>
      ({ t with sun := ⟨true, components sx sy sz, min 1500 dni.toNat, min 4095 atc.toNat⟩ },
        takenCode (sunLimited sx sy sz dni atc))) s := by
  change execSetSun sx sy sz dni atc s = _
  simp only [execSetSun, if_pos ha]

/-- SET_SUN of any other vector is the delivery of a SUN_HELD (R4). -/
theorem exec_setSun_of_held (ha : ¬ sunAccepted (components sx sy sz) = true) (s : State) :
    exec (.setSun sx sy sz dni atc) s =
      deliver (.setSun sx sy sz dni atc) (fun t => (t.raiseD .sunHeld, .held)) s := by
  change execSetSun sx sy sz dni atc s = _
  simp only [execSetSun, if_neg ha]

variable {s : State} (hr : s.accepts (.setSun sx sy sz dni atc) = true)
include hr

/-- An accepted vector is written with the limited DNI and ATC (R3, R4). -/
theorem setSun_writes_sun_of_accepted (ha : sunAccepted (components sx sy sz) = true) :
    ∃ t, exec (.setSun sx sy sz dni atc) s = .next t
      ∧ Delivered s t .dispatch (takenCode (sunLimited sx sy sz dni atc))
      ∧ t.bare =
          { s with sun := ⟨true, components sx sy sz, min 1500 dni.toNat, min 4095 atc.toNat⟩ }.bare :=
  exec_taken rfl hr (exec_setSun_of_accepted _ _ _ _ _ ha s) rfl rfl rfl rfl

/-- Any other vector is held (R4): the delivery raises SUN_HELD and writes nothing else. -/
theorem setSun_raises_sunHeld_of_held (ha : ¬ sunAccepted (components sx sy sz) = true) :
    ∃ t, exec (.setSun sx sy sz dni atc) s = .next t
      ∧ Delivered s t .dispatch .held ∧ t.bare = (s.raiseD .sunHeld).bare :=
  exec_taken rfl hr (exec_setSun_of_held _ _ _ _ _ ha s) rfl rfl rfl rfl

end

/-- Settles O27: the acceptance test of R4 splits every SET_SUN into the two deliveries above, and each of the
statement's two ranges admits one of them. -/
theorem setSun : Obligations.SetSun := by
  unfold Obligations.SetSun
  intro s sx sy sz dni atc x y z hr hx hy hz
  have hv : components sx sy sz = ⟨x, y, z⟩ := by
    simp only [components, component_eq, hx, hy, hz]
  have hrange := sunAccepted_iff x y z
  by_cases ha : sunAccepted ⟨x, y, z⟩ = true
  · obtain ⟨t, hexec, hdel, hbare⟩ := setSun_writes_sun_of_accepted sx sy sz dni atc hr (by rwa [hv])
    have hsun : t.sun = ⟨true, components sx sy sz, min 1500 dni.toNat, min 4095 atc.toNat⟩ :=
      congrArg (·.sun) hbare
    obtain ⟨hlo, hhi⟩ := hrange.1 ha
    refine ⟨t, hexec, fun _ _ => ⟨?_, ?_, ?_, ?_, ?_, ?_⟩,
      fun hout => hout.elim (absurd hlo ·.not_ge) (absurd hhi ·.not_ge)⟩
    · simpa only [takenCode, sunLimited_iff] using hdel
    · rw [hsun]
    · rw [hsun, hv]
    · rw [hsun]; exact min_def_lt 1500 _
    · rw [hsun]; exact min_def_lt 4095 _
    · rw [hbare, hsun]
  · obtain ⟨t, hexec, hdel, hbare⟩ := setSun_raises_sunHeld_of_held sx sy sz dni atc hr (by rwa [hv])
    have hevents : t.devents = (s.raiseD .sunHeld).devents := congrArg (·.devents) hbare
    refine ⟨t, hexec, fun hlo hhi => absurd (hrange.2 ⟨hlo, hhi⟩) ha,
      fun _ => ⟨hdel, congrArg (·.sun) hbare, ?_, ?_, fun e he => ?_⟩⟩
    · rw [State.dPending_of_bare_eq hbare, State.dPending_raiseD]
    · rw [hbare, hevents, State.raiseD]
    · rw [State.dPending_of_bare_eq hbare, State.dPending_raiseD_iff, decide_eq_false he.symm, Bool.or_false]

end Sys2Proof.Machine
end

section
/-! PROOFS. Two commands of the heliostat table that move a heliostat between the collections: PARK (R38) and INCLUDE
(R40). -/

namespace Sys2Proof.Machine

/-! ### A command of the table on a present record -/

/-- The checks of R31 pass for a present record. -/
theorem withRecord_of_present {index : BitVec 16} {s : State} (act : Nat → Hel → State → State × Code)
    (hi : index.toNat ≤ 1999) (hp : (s.hel index.toNat).state ≠ .absent) :
    withRecord index act s = act index.toNat (s.hel index.toNat) s := by
  rw [withRecord, if_neg hi.not_gt, if_neg hp]

/-- `exec_taken` for a command of the table on a present record, whose action takes `s` to `v` and does not touch the
receiving port. -/
theorem exec_taken_of_present {c : Instr} {w : WireCmd} (hw : wire c = some w) {index : BitVec 16}
    {act : Nat → Hel → State → State × Code} {s v : State} {code : Code} (hr : s.accepts c = true)
    (hi : index.toNat ≤ 1999) (hp : (s.hel index.toNat).state ≠ .absent)
    (hc : exec c s = deliver c (withRecord index act) s)
    (ha : act index.toNat (s.hel index.toNat) (s.setTxn w.port (Txn.received w))
      = (v.setTxn w.port (Txn.received w), code))
    (ht : v.txn (otherPort w.port) = s.txn (otherPort w.port)) (hs : v.pau.supLeft = s.pau.supLeft) :
    ∃ t, exec c s = .next t ∧ Delivered s t w.port code ∧ t.bare = v.bare := by
  have hact : withRecord index act (s.setTxn w.port (Txn.received w)) = (v.setTxn w.port (Txn.received w), code) := by
    rw [withRecord_of_present act hi (by rwa [State.setTxn_hel]), State.setTxn_hel, ha]
  refine exec_taken hw hr hc hact ?_ ?_ (State.setTxn_bare _ _ _)
  · rw [State.txn_setTxn_ne _ (otherPort_ne _), ht]
  · rw [State.setTxn_pau, hs]

/-! ### Records after a delivery -/

section
variable {s t u v : State}

theorem State.hel_of_bare_eq (h : t.bare = u.bare) (i : Nat) : t.hel i = u.hel i := congrArg (·.hel i) h

theorem State.point_of_bare_eq (h : t.bare = u.bare) (p : Nat) : t.point p = u.point p := congrArg (·.point p) h

theorem State.zone_of_bare_eq (h : t.bare = u.bare) (z : Nat) : t.zone z = u.zone z := congrArg (·.zone z) h

theorem State.seg_of_bare_eq (h : t.bare = u.bare) (k : Nat) : t.seg k = u.seg k := congrArg (·.seg k) h

theorem State.devents_of_bare_eq (h : t.bare = u.bare) : t.devents = u.devents := congrArg (·.devents) h

/-- What a delivery writes lies outside the frame of a settlement. -/
theorem SettleFrame.of_bare_eq (h : t.bare = s.bare) : SettleFrame s t := by
  refine ⟨fun i => ?_, fun z => ?_, fun p => ?_, fun k => ?_, ?_⟩
  · rw [State.hel_of_bare_eq h]
  · rw [State.zone_of_bare_eq h]
  · rw [State.point_of_bare_eq h]
  · rw [State.seg_of_bare_eq h]
  · rw [State.rest, h, ← State.rest]

/-- A delivery of a change of records and zones alone leaves every other field. -/
theorem State.bare_eq_of_hels_zones (h : t.bare = v.bare) (hv : v = { s with hels := v.hels, zones := v.zones }) :
    t.bare = { s with hels := t.hels, zones := t.zones }.bare := by
  have hhels : t.hels = v.hels := congrArg (·.hels) h
  have hzones : t.zones = v.zones := congrArg (·.zones) h
  rw [h, hhels, hzones, ← hv]

end

/-! ### Actions that do not touch a port -/

section
variable (s : State) (p : Port) (x : Txn)

theorem State.modHel_setTxn (i : Nat) (f : Hel → Hel) : (s.setTxn p x).modHel i f = (s.modHel i f).setTxn p x := by
  cases p <;> rfl

theorem State.modPoint_setTxn (q : Nat) (f : Point → Point) :
    (s.setTxn p x).modPoint q f = (s.modPoint q f).setTxn p x := by
  cases p <;> rfl

theorem State.modZone_setTxn (z : Nat) (f : Zone → Zone) :
    (s.setTxn p x).modZone z f = (s.modZone z f).setTxn p x := by
  cases p <;> rfl

theorem State.urgentAdd_setTxn (k i : Nat) : (s.setTxn p x).urgentAdd k i = (s.urgentAdd k i).setTxn p x := by
  cases p <;> rfl

theorem State.alternateOf_setTxn (h : Hel) : (s.setTxn p x).alternateOf h = s.alternateOf h := by
  cases p <;> rfl

theorem State.assignedZone_setTxn (h : Hel) : (s.setTxn p x).assignedZone h = s.assignedZone h := by
  cases p <;> rfl

theorem State.joinZone_setTxn (h : Hel) : (s.setTxn p x).joinZone h = s.joinZone h := by
  cases p <;> rfl

theorem State.refreshClear_setTxn : (s.setTxn p x).refreshClear = s.refreshClear.setTxn p x := by
  have hc : (s.setTxn p x).fieldIsClear = s.fieldIsClear := by cases p <;> rfl
  unfold State.refreshClear
  rw [hc, State.setTxn_pau]
  dsimp only
  split <;> cases p <;> rfl

end

/-! ### Departures -/

section
variable (s : State) (i : Nat) (dst : HState) (p : Port) (x : Txn)

theorem State.clearAlternate_eq : s.clearAlternate i =
    { s with hels := (s.clearAlternate i).hels, points := (s.clearAlternate i).points } := by
  unfold State.clearAlternate
  dsimp only
  split
  · split <;> split <;> rfl
  · rfl

/-- A departure writes the four tables and nothing else. -/
theorem State.depart_eq : s.depart i dst =
    { s with
        hels := (s.depart i dst).hels
        points := (s.depart i dst).points
        zones := (s.depart i dst).zones
        segs := (s.depart i dst).segs } := by
  have h := s.clearAlternate_eq i
  unfold State.depart State.departFrom
  generalize s.clearAlternate i = u at h ⊢
  rw [h]
  rfl

theorem State.clearAlternate_setTxn : (s.setTxn p x).clearAlternate i = (s.clearAlternate i).setTxn p x := by
  unfold State.clearAlternate
  simp only [State.setTxn_hel, State.alternateOf_setTxn]
  split
  · split <;> split <;> simp only [State.modPoint_setTxn, State.modHel_setTxn]
  · rfl

theorem State.depart_setTxn : (s.setTxn p x).depart i dst = (s.depart i dst).setTxn p x := by
  simp only [State.depart, State.departFrom, State.setTxn_hel, State.joinZone_setTxn, State.clearAlternate_setTxn,
    State.modZone_setTxn, State.modHel_setTxn, State.urgentAdd_setTxn]

theorem State.hel_depart (j : Nat) : (s.depart i dst).hel j =
    if j = i then { s.hel i with
      state := dst
      onAlternate := false
      departing := true
      departureZone := some (s.joinZone (s.hel i)) }
    else s.hel j :=
  s.hel_departFrom _ i dst j

theorem State.zone_depart (z : Nat) : (s.depart i dst).zone z =
    if z = s.joinZone (s.hel i) then { s.zone z with
      joinList := (s.zone z).joinList.erase i, pendingDepartures := (s.zone z).pendingDepartures + 1 }
    else s.zone z := by
  rw [State.depart, State.zone_departFrom]
  split
  next hz => rw [hz]
  next => rfl

/-- A departing heliostat stands in its segment's urgent queue (R61). -/
theorem State.mem_urgent_depart : i ∈ ((s.depart i dst).seg (s.hel i).segment).urgent := by
  simp only [State.depart, State.departFrom, State.urgentAdd, State.seg_modSeg_same]
  split
  next hmem => exact hmem
  next => exact List.mem_append_right _ (List.mem_singleton_self i)

end

/-! ### Moves into and out of the rejoin queues -/

section
variable (s : State) (i : Nat) (p : Port) (x : Txn)

theorem State.dequeue_setTxn (dst : HState) : (s.setTxn p x).dequeue i dst = (s.dequeue i dst).setTxn p x := by
  simp only [State.dequeue, State.setTxn_hel, State.assignedZone_setTxn, State.modZone_setTxn, State.modHel_setTxn]

theorem State.dequeue_eq (dst : HState) : s.dequeue i dst =
    { s with hels := (s.dequeue i dst).hels, zones := (s.dequeue i dst).zones } := rfl

/-- The condition under which a heliostat returns to its queue (R40). -/
theorem State.queueOrStow_eq_ite : s.queueOrStow i =
    if (s.hel i).assignment.isSome ∧ s.stowInEffect = false ∧ (s.hel i).trackingError = false then s.enqueue i
    else s.modHel i fun h => { h with state := .stowed } := by
  simp [State.queueOrStow, and_assoc]

theorem State.queueOrStow_setTxn : (s.setTxn p x).queueOrStow i = (s.queueOrStow i).setTxn p x := by
  rw [State.queueOrStow_eq_ite, State.queueOrStow_eq_ite, State.setTxn_hel, State.setTxn_stowInEffect]
  split <;> cases p <;> rfl

theorem State.queueOrStow_eq : s.queueOrStow i =
    { s with hels := (s.queueOrStow i).hels, zones := (s.queueOrStow i).zones } := by
  rw [State.queueOrStow_eq_ite]
  split <;> rfl

/-- Back in the field, a heliostat is QUEUED or STOWED, and no other record is written. -/
theorem State.hel_queueOrStow (j : Nat) : (s.queueOrStow i).hel j =
    if j = i then { s.hel i with
      state :=
        if (s.hel i).assignment.isSome ∧ s.stowInEffect = false ∧ (s.hel i).trackingError = false then .queued
        else .stowed }
    else s.hel j := by
  rw [State.queueOrStow_eq_ite]
  split
  · exact s.hel_enqueue i j
  · exact s.hel_modHel i j _

end

/-! ### PARK -/

section
variable {s : State} {i : BitVec 16} (hr : s.accepts (.park i) = true) (hi : i.toNat ≤ 1999)
include hr hi

theorem park_dequeues_of_queued (hq : (s.hel i.toNat).state = .queued) :
    ∃ t, exec (.park i) s = .next t ∧ Delivered s t .dispatch .done
      ∧ t.bare = (s.dequeue i.toNat .standby).bare := by
  refine exec_taken_of_present (v := s.dequeue i.toNat .standby) rfl hr hi (by simp [hq]) rfl ?_ rfl rfl
  simp only [hq, State.dequeue_setTxn]

theorem park_departs_of_onTarget (ho : (s.hel i.toNat).state = .onTarget) :
    ∃ t, exec (.park i) s = .next t ∧ Delivered s t .dispatch .done
      ∧ t.bare = (s.depart i.toNat .standby).refreshClear.bare := by
  refine exec_taken_of_present (v := (s.depart i.toNat .standby).refreshClear) rfl hr hi (by simp [ho]) rfl ?_ ?_ ?_
  · simp only [ho, State.depart_setTxn, State.refreshClear_setTxn]
  · change (State.refreshClear _).ppt = s.ppt
    rw [State.refreshClear_ppt, State.depart_eq]
  · rw [State.refreshClear_pau, State.depart_eq]

theorem park_refused (hp : (s.hel i.toNat).state ≠ .absent) (hq : (s.hel i.toNat).state ≠ .queued)
    (ho : (s.hel i.toNat).state ≠ .onTarget) :
    ∃ t, exec (.park i) s = .next t ∧ Delivered s t .dispatch .state ∧ t.bare = s.bare := by
  refine exec_taken_of_present rfl hr hi hp rfl ?_ rfl rfl
  split
  next h => exact absurd h hq
  next h => exact absurd h ho
  all_goals rfl

end

/-- Settles O16: a case split on the record's state, one delivery for each of the statement's three cases. -/
theorem park : Obligations.Park := by
  unfold Obligations.Park
  rintro s i h rfl hr hi hp
  by_cases hq : (s.hel i.toNat).state = .queued
  · obtain ⟨t, hexec, hdel, hbare⟩ := park_dequeues_of_queued hr hi hq
    refine ⟨t, hexec, fun _ => ⟨hdel, ?_, fun z => ?_, fun j hj => ?_,
        State.bare_eq_of_hels_zones hbare (s.dequeue_eq _ _)⟩,
      fun ho => absurd (hq.symm.trans ho) (by decide), fun hn => absurd hq hn⟩
    · rw [State.hel_of_bare_eq hbare, State.hel_dequeue, if_pos rfl]
    · rw [State.zone_of_bare_eq hbare, State.zone_dequeue]
    · rw [State.hel_of_bare_eq hbare, State.hel_dequeue, if_neg hj]
  by_cases ho : (s.hel i.toNat).state = .onTarget
  · obtain ⟨t, hexec, hdel, hbare⟩ := park_departs_of_onTarget hr hi ho
    refine ⟨t, hexec, fun h => absurd h hq, fun _ => ⟨hdel, ?_, fun z => ?_, ?_, fun j hj => ?_, ?_, ?_⟩,
      fun _ hn => absurd ho hn⟩
    · rw [State.hel_of_bare_eq hbare, State.refreshClear_hel, State.hel_depart, if_pos rfl]
    · rw [State.zone_of_bare_eq hbare, State.refreshClear_zone, State.zone_depart]
    · rw [State.seg_of_bare_eq hbare, State.refreshClear_seg]
      exact s.mem_urgent_depart _ _
    · rw [State.hel_of_bare_eq hbare, State.refreshClear_hel, State.hel_depart, if_neg hj]
    · rw [State.devents_of_bare_eq hbare, State.refreshClear_devents, State.depart_eq]
    · exact ((s.depart_frame _ _).trans (State.refreshClear_frame _)).trans (.of_bare_eq hbare)
  · obtain ⟨t, hexec, hdel, hbare⟩ := park_refused hr hi hp hq ho
    exact ⟨t, hexec, fun h => absurd h hq, fun h => absurd h ho, fun _ _ => ⟨hdel, hbare⟩⟩

/-! ### INCLUDE -/

section
variable {s : State} {i : BitVec 16} (hr : s.accepts (.includeHel i) = true) (hi : i.toNat ≤ 1999)
include hr hi

theorem includeHel_queues_or_stows_of_excluded (he : (s.hel i.toNat).state = .excluded) :
    ∃ t, exec (.includeHel i) s = .next t ∧ Delivered s t .dispatch .done
      ∧ t.bare = (s.queueOrStow i.toNat).bare := by
  refine exec_taken_of_present (v := s.queueOrStow i.toNat) rfl hr hi (by simp [he]) rfl ?_ ?_ ?_
  · simp only [he, if_true, State.queueOrStow_setTxn]
  · rw [State.queueOrStow_eq]; rfl
  · rw [State.queueOrStow_eq]

theorem includeHel_refused (hp : (s.hel i.toNat).state ≠ .absent) (he : (s.hel i.toNat).state ≠ .excluded) :
    ∃ t, exec (.includeHel i) s = .next t ∧ Delivered s t .dispatch .state ∧ t.bare = s.bare := by
  refine exec_taken_of_present rfl hr hi hp rfl ?_ rfl rfl
  rw [if_neg he]

end

/-- Settles O18: an EXCLUDED heliostat goes through `State.queueOrStow`, whose two branches are the statement's. -/
theorem includeHel : Obligations.Include := by
  unfold Obligations.Include
  rintro s i h rfl hr hi hp
  by_cases he : (s.hel i.toNat).state = .excluded
  · obtain ⟨t, hexec, hdel, hbare⟩ := includeHel_queues_or_stows_of_excluded hr hi he
    refine ⟨t, hexec, fun _ => ⟨hdel, ?_, fun j hj => ?_,
        State.bare_eq_of_hels_zones hbare (s.queueOrStow_eq _)⟩,
      fun hn => absurd he hn⟩
    · rw [State.hel_of_bare_eq hbare, State.hel_queueOrStow, if_pos rfl]
      split
      next hc =>
        refine ⟨rfl, fun z => ?_⟩
        rw [State.zone_of_bare_eq hbare, State.queueOrStow_eq_ite, if_pos hc, State.zone_enqueue]
      next hc =>
        have hzones : t.zones = (s.queueOrStow i.toNat).zones := congrArg (·.zones) hbare
        rw [hzones, State.queueOrStow_eq_ite, if_neg hc]
        exact ⟨rfl, rfl⟩
    · rw [State.hel_of_bare_eq hbare, State.hel_queueOrStow, if_neg hj]
  · obtain ⟨t, hexec, hdel, hbare⟩ := includeHel_refused hr hi hp he
    exact ⟨t, hexec, fun h => absurd h he, fun _ => ⟨hdel, hbare⟩⟩

end Sys2Proof.Machine
end

section
/-! PROOFS. SET_RAMP: the limits of RJ_MAX and the one zone record it writes (R56). -/

namespace Sys2Proof.Machine

/-! ### A limited operand -/

section
variable {lo hi : Nat} (hle : lo ≤ hi) (v : Nat)
include hle

theorem clamp_eq_ite : clamp lo hi v = if v < lo then lo else if hi < v then hi else v := by
  unfold clamp
  split_ifs <;> omega

theorem clamp_ne_self_iff : clamp lo hi v ≠ v ↔ v < lo ∨ hi < v := by
  unfold clamp
  omega

end

theorem takenCode_clamp {lo hi : Nat} (hle : lo ≤ hi) (v : Nat) :
    takenCode (clamp lo hi v != v) = if v < lo ∨ hi < v then .clamped else .done := by
  simp only [takenCode, bne_iff_ne, clamp_ne_self_iff hle]

/-! ### A command of the zone records -/

section
variable {zone : Byte} (act : Nat → State → State × Code) (s : State)

theorem withZone_of_le (hz : zone.toNat ≤ 11) : withZone zone act s = act zone.toNat s := by
  rw [withZone, if_neg hz.not_gt]

theorem withZone_of_gt (hz : 11 < zone.toNat) : withZone zone act s = (s, .range) := by
  rw [withZone, if_pos hz]

end

/-- `exec_taken` for a command of the zone records that rewrites one zone and nothing else. -/
theorem exec_taken_of_modZone {c : Instr} {w : WireCmd} (hw : wire c = some w) {zone : Byte}
    {act : Nat → State → State × Code} {s : State} {f : Zone → Zone} {code : Code} (hr : s.accepts c = true)
    (hz : zone.toNat ≤ 11) (hc : exec c s = deliver c (withZone zone act) s)
    (ha : act zone.toNat (s.setTxn w.port (Txn.received w))
      = ((s.setTxn w.port (Txn.received w)).modZone zone.toNat f, code)) :
    ∃ t, exec c s = .next t ∧ Delivered s t w.port code ∧ t.bare = (s.modZone zone.toNat f).bare := by
  refine exec_taken hw hr hc ((withZone_of_le act _ hz).trans ha) ?_ ?_ ?_
  · rw [State.modZone_setTxn, State.txn_setTxn_ne _ (otherPort_ne _)]; rfl
  · rw [State.modZone_setTxn, State.setTxn_pau]; rfl
  · rw [State.modZone_setTxn, State.setTxn_bare]

/-- A zone above 11 is refused with RANGE, and nothing is written (R53, R55, R56). -/
theorem exec_refused_of_zone_gt {c : Instr} {w : WireCmd} (hw : wire c = some w) {zone : Byte}
    {act : Nat → State → State × Code} {s : State} (hr : s.accepts c = true) (hz : 11 < zone.toNat)
    (hc : exec c s = deliver c (withZone zone act) s) :
    ∃ t, exec c s = .next t ∧ Delivered s t w.port .range ∧ t.bare = s.bare :=
  exec_taken hw hr hc (withZone_of_gt act _ hz) (State.txn_setTxn_ne _ (otherPort_ne _) _)
    (by rw [State.setTxn_pau]) (State.setTxn_bare _ _ _)

/-! ### The record after a delivery -/

section
variable {s t : State} {z : Nat} {f : Zone → Zone} (h : t.bare = (s.modZone z f).bare)
include h

theorem State.zone_of_bare_eq_modZone : t.zone z = f (s.zone z) := by
  rw [State.zone_of_bare_eq h, State.zone_modZone_same]

theorem State.zone_of_bare_eq_modZone_ne {y : Nat} (hy : y ≠ z) : t.zone y = s.zone y := by
  rw [State.zone_of_bare_eq h, State.zone_modZone, if_neg hy]

/-- A delivery of a change of one zone leaves everything outside the zone table. -/
theorem State.bare_eq_of_modZone : t.bare = { s with zones := t.zones }.bare := by
  have hzones : t.zones = (s.modZone z f).zones := congrArg (·.zones) h
  rw [h, hzones]
  rfl

end

/-! ### SET_RAMP -/

section
variable {s : State} {z : Byte} (v : Byte) (hr : s.accepts (.setRamp z v) = true)
include hr

theorem setRamp_writes_rjMax_of_le (hz : z.toNat ≤ 11) :
    ∃ t, exec (.setRamp z v) s = .next t
      ∧ Delivered s t .protection (takenCode (clamp 1 32 v.toNat != v.toNat))
      ∧ t.bare = (s.modZone z.toNat fun zn => { zn with rjMax := clamp 1 32 v.toNat }).bare :=
  exec_taken_of_modZone rfl hr hz rfl rfl

theorem setRamp_refused_of_gt (hz : 11 < z.toNat) :
    ∃ t, exec (.setRamp z v) s = .next t ∧ Delivered s t .protection .range ∧ t.bare = s.bare :=
  exec_refused_of_zone_gt rfl hr hz rfl

end

/-- Settles O22: a case split on the zone operand; the limits of R56 are those of `clamp`. -/
theorem setRamp : Obligations.SetRamp := by
  unfold Obligations.SetRamp
  intro s z v hr
  rcases Nat.lt_or_ge 11 z.toNat with hz | hz
  · obtain ⟨t, hexec, hdel, hbare⟩ := setRamp_refused_of_gt v hr hz
    exact ⟨t, hexec, fun hle => absurd hz hle.not_gt, fun _ => ⟨hdel, hbare⟩⟩
  · obtain ⟨t, hexec, hdel, hbare⟩ := setRamp_writes_rjMax_of_le v hr hz
    have hlimits : 1 ≤ 32 := by decide
    refine ⟨t, hexec, fun _ => ⟨?_, ?_, fun y hy => State.zone_of_bare_eq_modZone_ne hbare hy,
      State.bare_eq_of_modZone hbare⟩, fun hgt => absurd hgt hz.not_gt⟩
    · simpa only [takenCode_clamp hlimits, Nat.lt_one_iff] using hdel
    · simpa only [clamp_eq_ite hlimits, Nat.lt_one_iff] using State.zone_of_bare_eq_modZone hbare

end Sys2Proof.Machine
end

section
/-! PROOFS. SET_EPOCH: the period it writes and the timer it starts, changes or stops (R79). -/

namespace Sys2Proof.Machine

/-! ### The period operand -/

theorem epochPeriod_eq_ite (v : Nat) : epochPeriod v = if 1 ≤ v ∧ v ≤ 249 then 250 else v := by
  unfold epochPeriod
  split_ifs <;> omega

theorem epochPeriod_ne_self_iff (v : Nat) : epochPeriod v ≠ v ↔ 1 ≤ v ∧ v ≤ 249 := by
  rw [epochPeriod_eq_ite]
  split_ifs <;> omega

theorem takenCode_epochPeriod (v : Nat) :
    takenCode (epochPeriod v != v) = if 1 ≤ v ∧ v ≤ 249 then .clamped else .done := by
  simp only [takenCode, bne_iff_ne, epochPeriod_ne_self_iff]

/-! ### The timer -/

section
variable (e : Epoch) {p : Nat}

theorem Epoch.write_zero : e.write 0 = ⟨false, 0, none, 0⟩ := rfl

theorem Epoch.write_of_running (hp : p ≠ 0) (h : e.running = true) :
    e.write p = { e with pendingPeriod := some p } := by
  rw [Epoch.write, if_neg hp, if_pos h]

theorem Epoch.write_of_stopped (hp : p ≠ 0) (h : e.running = false) :
    e.write p = { e with running := true, period := p, countdown := p } := by
  rw [Epoch.write, if_neg hp, if_neg (by simp [h])]

end

/-! ### SET_EPOCH -/

theorem setEpoch_writes_epoch {s : State} {v : BitVec 16} (hr : s.accepts (.setEpoch v) = true) :
    ∃ t, exec (.setEpoch v) s = .next t
      ∧ Delivered s t .dispatch (takenCode (epochPeriod v.toNat != v.toNat))
      ∧ t.bare = { s with epoch := s.epoch.write (epochPeriod v.toNat) }.bare :=
  exec_taken rfl hr rfl rfl rfl rfl rfl

/-- Settles O28: one delivery writes the timer, and R79's three conditions are the equations of `Epoch.write`. -/
theorem setEpoch : Obligations.SetEpoch := by
  unfold Obligations.SetEpoch
  intro s v p hr hp
  rw [← epochPeriod_eq_ite] at hp
  obtain ⟨t, hexec, hdel, hbare⟩ := setEpoch_writes_epoch hr
  have hepoch : t.epoch = s.epoch.write p := hp ▸ congrArg (·.epoch) hbare
  refine ⟨t, hexec, takenCode_epochPeriod v.toNat ▸ hdel, fun hzero => ?_, fun hpos hstop => ?_,
    fun hpos hrun => ?_, congrArg (·.sweep) hbare, ?_⟩
  · rw [hepoch, hzero, Epoch.write_zero]
  · rw [hepoch, Epoch.write_of_stopped _ hpos hstop]
    exact ⟨rfl, rfl, rfl, rfl⟩
  · rw [hepoch, Epoch.write_of_running _ hpos hrun]
  · rw [hbare, hepoch, hp]

end Sys2Proof.Machine
end

section
/-! PROOFS. The Release Stagger Generator: the one cycle of its sequence register (R94), SET_STAGGER (R93) and the
delays that a start loads (R95). -/

namespace Sys2Proof.Machine

/-! ### One step of the register -/

/-- A step in numbers, as R94 states it. -/
theorem toNat_rsgNext (r : BitVec 8) :
    (rsgNext r).toNat = if 128 ≤ r.toNat then (2 * r.toNat % 256) ^^^ 29 else 2 * r.toNat % 256 := by
  unfold rsgNext
  split <;> simp [Nat.shiftLeft_eq, Nat.mul_comm]

/-- The exclusive-or partner 29 is odd and a doubled value even, so the two never cancel. -/
theorem rsgNext_ne_zero {r : BitVec 8} (hr : r ≠ 0) : rsgNext r ≠ 0 := by
  have hpos : r.toNat ≠ 0 := fun h => hr (BitVec.eq_of_toNat_eq h)
  intro h
  have hnext := toNat_rsgNext r
  rw [h] at hnext
  change 0 = _ at hnext
  split at hnext
  · have heq : 2 * r.toNat % 256 = 29 := Nat.xor_eq_zero_iff.1 hnext.symm
    omega
  · omega

theorem rsgNext_iterate_ne_zero {r : BitVec 8} (hr : r ≠ 0) (n : Nat) : rsgNext^[n] r ≠ 0 := by
  induction n with
  | zero => exact hr
  | succ n ih => rw [Function.iterate_succ_apply']; exact rsgNext_ne_zero ih

/-! ### The cycle through 1

From 1 the register is back after 255 = 3 · 5 · 17 steps and not after 85, 51 or 15. Its period divides 255, and every
smaller divisor divides one of those three. -/

theorem rsgNext_isPeriodicPt_one : Function.IsPeriodicPt rsgNext 255 1 := by
  change rsgNext^[255] 1 = 1
  decide +kernel

theorem minimalPeriod_rsgNext_one : Function.minimalPeriod rsgNext 1 = 255 := by
  have hmem : Function.minimalPeriod rsgNext 1 ∈ Nat.divisors 255 :=
    Nat.mem_divisors.2 ⟨rsgNext_isPeriodicPt_one.minimalPeriod_dvd, by decide⟩
  have hnot {n : ℕ} (hn : rsgNext^[n] 1 ≠ 1) : ¬ Function.minimalPeriod rsgNext 1 ∣ n := fun h =>
    hn (Function.isPeriodicPt_iff_minimalPeriod_dvd.2 h)
  have hdiv : ∀ m ∈ Nat.divisors 255, ¬ m ∣ 85 → ¬ m ∣ 51 → ¬ m ∣ 15 → m = 255 := by decide
  exact hdiv _ hmem (hnot (by decide +kernel)) (hnot (by decide +kernel)) (hnot (by decide +kernel))

/-- The 255 values from 1 on differ and are not 0, so they are all of the 255 that are not 0. -/
theorem exists_rsgNext_iterate_one_eq {q : BitVec 8} (hq : q ≠ 0) : ∃ n < 255, rsgNext^[n] 1 = q := by
  have hmaps : Set.MapsTo (rsgNext^[·] 1) (Finset.range 255) (Finset.univ.erase (0 : BitVec 8)) := fun n _ => by
    simpa using rsgNext_iterate_ne_zero (r := 1) (by decide) n
  have hinj : Set.InjOn (rsgNext^[·] 1) (Finset.range 255) := by
    rw [Finset.coe_range, ← minimalPeriod_rsgNext_one]
    exact Function.iterate_injOn_Iio_minimalPeriod
  have hcard : (Finset.univ.erase (0 : BitVec 8)).card ≤ (Finset.range 255).card := by
    rw [Finset.card_erase_of_mem (Finset.mem_univ _), Finset.card_univ, Finset.card_range,
      Fintype.card_congr BitVec.equivFin.toEquiv, Fintype.card_fin]
    decide
  obtain ⟨n, hn, hnq⟩ := Finset.surjOn_of_injOn_of_card_le _ hmaps hinj hcard (by simpa using hq)
  exact ⟨n, Finset.mem_range.1 hn, hnq⟩

/-! ### The cycle through every value -/

theorem rsgNext_isPeriodicPt {r : BitVec 8} (hr : r ≠ 0) : Function.IsPeriodicPt rsgNext 255 r := by
  obtain ⟨a, -, rfl⟩ := exists_rsgNext_iterate_one_eq hr
  exact rsgNext_isPeriodicPt_one.apply_iterate a

/-- From `r`, which stands `a` steps after 1, the steps back to 1 and then those to `q` lead to `q`. -/
theorem exists_rsgNext_iterate_eq {r q : BitVec 8} (hr : r ≠ 0) (hq : q ≠ 0) : ∃ n < 255, rsgNext^[n] r = q := by
  obtain ⟨a, ha, hra⟩ := exists_rsgNext_iterate_one_eq hr
  obtain ⟨b, -, hqb⟩ := exists_rsgNext_iterate_one_eq hq
  refine ⟨(b + (255 - a)) % 255, Nat.mod_lt _ (by decide), ?_⟩
  calc rsgNext^[(b + (255 - a)) % 255] r
      = rsgNext^[b + (255 - a)] r := (rsgNext_isPeriodicPt hr).iterate_mod_apply _
    _ = rsgNext^[b] (rsgNext^[255 - a] (rsgNext^[a] 1)) := by rw [Function.iterate_add_apply, hra]
    _ = rsgNext^[b] 1 := by
        rw [← Function.iterate_add_apply rsgNext (255 - a), Nat.sub_add_cancel ha.le, rsgNext_isPeriodicPt_one.eq]
    _ = q := hqb

/-! ### One draw -/

/-- What a draw for segment `k` loads into its release timer: nothing where the delay is 0 (R95, R96). -/
def Rsg.load (g : Rsg) (k : Nat) : Option Nat :=
  let d := k * g.stepMs + g.reg.toNat % (g.dmax + 1)
  if d = 0 then none else some d

section
variable (s : State) (k : Nat)

@[simp] theorem State.release_rsg : (s.release k).rsg = s.rsg := by
  unfold State.release
  split <;> rfl

/-- A draw steps the register and writes one timer, whether it hands a release over or not. -/
theorem State.rsg_draw : (s.draw k).rsg =
    { s.rsg with reg := rsgNext s.rsg.reg, timers := Tab.put none s.rsg.timers k (s.rsg.load k) } := by
  unfold State.draw Rsg.load
  dsimp only
  split
  · rw [State.release_rsg]; rfl
  · rfl

theorem State.timer_draw (j : Nat) : (s.draw k).timer j = if j = k then s.rsg.load k else s.timer j := by
  rw [State.timer, State.rsg_draw, Tab.get_put]
  rfl

end

/-! ### A start -/

/-- The first `n` draws of a start, in ascending segment order (R95). -/
def State.drawFirst (s : State) (n : Nat) : State := (List.range n).foldl State.draw s

theorem State.startRsg_eq_drawFirst (s : State) : s.startRsg = s.drawFirst 8 := rfl

section
variable (s : State) (n : Nat)

theorem State.drawFirst_succ : s.drawFirst (n + 1) = (s.drawFirst n).draw n := by
  rw [State.drawFirst, List.range_succ, List.foldl_append]
  rfl

/-- Each draw steps the register once and leaves the settings. -/
theorem State.rsg_drawFirst : (s.drawFirst n).rsg =
    { s.rsg with reg := rsgNext^[n] s.rsg.reg, timers := (s.drawFirst n).rsg.timers } := by
  induction n with
  | zero => rfl
  | succ n ih => rw [State.drawFirst_succ, State.rsg_draw, ih, Function.iterate_succ_apply']

theorem State.load_drawFirst :
    (s.drawFirst n).rsg.load n = Rsg.load { s.rsg with reg := rsgNext^[n] s.rsg.reg } n := by
  rw [State.rsg_drawFirst]
  rfl

/-- Segment `k` has the draw after `k` steps of the register; the later draws leave its timer. -/
theorem State.timer_drawFirst {k : Nat} (hk : k < n) :
    (s.drawFirst n).timer k = Rsg.load { s.rsg with reg := rsgNext^[k] s.rsg.reg } k := by
  induction n with
  | zero => exact absurd hk (Nat.not_lt_zero k)
  | succ n ih =>
    rw [State.drawFirst_succ, State.timer_draw]
    split
    case isTrue h => rw [h, State.load_drawFirst]
    case isFalse h => exact ih (Nat.lt_of_le_of_ne (Nat.le_of_lt_succ hk) h)

end

/-! ### SET_STAGGER -/

theorem setStagger_writes_rsg {s : State} {a b c : Byte} (hr : s.accepts (.setStagger a b c) = true) :
    ∃ t, exec (.setStagger a b c) s = .next t ∧ Delivered s t .dispatch (takenCode (c == 0))
      ∧ t.bare = { s with rsg := ⟨a.toNat, b.toNat, if c = 0 then 1 else c, s.rsg.timers⟩ }.bare :=
  exec_taken rfl hr rfl rfl rfl rfl rfl

/-- Settles O31: the cycle of the register, the one delivery of SET_STAGGER, and the eight draws of a start. -/
theorem stagger : Obligations.Stagger := by
  unfold Obligations.Stagger
  refine ⟨⟨toNat_rsgNext, fun _ => rsgNext_ne_zero, fun _ => rsgNext_isPeriodicPt,
      fun _ _ => exists_rsgNext_iterate_eq, fun s k => by rw [State.rsg_draw]⟩,
    fun s a b c hr => ?_, fun s => ⟨?_, fun k hk d hd => ?_⟩⟩
  · obtain ⟨t, hexec, hdel, hbare⟩ := setStagger_writes_rsg hr
    have hrsg : t.rsg = ⟨a.toNat, b.toNat, if c = 0 then 1 else c, s.rsg.timers⟩ := congrArg (·.rsg) hbare
    refine ⟨t, hexec, ?_, hrsg, ?_⟩
    · simpa only [takenCode, beq_iff_eq] using hdel
    · rw [hbare, hrsg]
  · rw [State.startRsg_eq_drawFirst, State.rsg_drawFirst]
  · rw [State.startRsg_eq_drawFirst, State.timer_drawFirst s 8 hk, hd]
    rfl

end Sys2Proof.Machine
end

section
/-! PROOFS. What a settlement keeps: the ports, the PAU, pending events, and the safety of every zone that is within its
limit; and that settling all zones leaves each of them within its limit or with nothing aimed at it (R66). -/

namespace Sys2Proof.Machine

/-! ### What events and moves of heliostats write -/

theorem SettleFrame.raiseD (s : State) (e : DEvent) : SettleFrame s (s.raiseD e) :=
  ⟨fun _ => rfl, fun _ => rfl, fun _ => rfl, fun _ => rfl, rfl⟩

theorem SettleFrame.raiseP (s : State) (e : PEvent) : SettleFrame s (s.raiseP e) :=
  ⟨fun _ => rfl, fun _ => rfl, fun _ => rfl, fun _ => rfl, rfl⟩

/-- A state without its four tables of records: departures and moves between collections write nothing else. -/
def State.offTable (s : State) : State := { s with hels := [], points := [], zones := [], segs := [] }

section
variable (s : State) (z i q : Nat) (dst : HState)

@[simp] theorem State.modHel_offTable (f : Hel → Hel) : (s.modHel i f).offTable = s.offTable := rfl
@[simp] theorem State.modPoint_offTable (f : Point → Point) : (s.modPoint q f).offTable = s.offTable := rfl
@[simp] theorem State.modZone_offTable (f : Zone → Zone) : (s.modZone z f).offTable = s.offTable := rfl
@[simp] theorem State.urgentAdd_offTable (k : Nat) : (s.urgentAdd k i).offTable = s.offTable := rfl
@[simp] theorem State.enqueue_offTable : (s.enqueue i).offTable = s.offTable := rfl

@[simp] theorem State.clearAlternate_offTable : (s.clearAlternate i).offTable = s.offTable := by
  rw [State.clearAlternate_eq]; rfl

@[simp] theorem State.departFrom_offTable : (s.departFrom z i dst).offTable = s.offTable := by
  simp [State.departFrom]

@[simp] theorem State.clearDeparture_offTable : (s.clearDeparture i).offTable = s.offTable := by
  unfold State.clearDeparture
  dsimp only
  split
  · split <;> rfl
  · rfl

@[simp] theorem State.reroute_offTable : (s.reroute z i q).offTable = s.offTable := by
  unfold State.reroute
  dsimp only
  split <;> simp

@[simp] theorem State.grant_offTable : (s.grant z i).offTable = s.offTable := by
  simp [State.grant]

@[simp] theorem State.shedOne_offTable : (s.shedOne z).offTable = s.offTable := by
  cases hl : (s.zone z).joinList.getLast? with
  | none => rw [State.shedOne, hl]
  | some i =>
    rw [State.shedOne_of_newest hl]
    split <;> simp

/-- A member shed to its queue leaves the join list of the zone that sheds, and no other list changes (R69). -/
theorem State.joinList_returned (y : Nat) : (((s.departFrom z i dst).enqueue i).zone y).joinList =
    if y = z then (s.zone y).joinList.erase i else (s.zone y).joinList := by
  have hq : (((s.departFrom z i dst).enqueue i).zone y).joinList = ((s.departFrom z i dst).zone y).joinList := by
    rw [State.zone_enqueue]
    split <;> rfl
  rw [hq, State.zone_departFrom]
  split
  next h => rw [h]
  next => rfl

/-- A re-routed member moves from the one join list to the other's tail (R68). -/
theorem State.joinList_reroute (hz : (s.point q).zone ≠ z) (y : Nat) : ((s.reroute z i q).zone y).joinList =
    if y = z then (s.zone y).joinList.erase i
    else if y = (s.point q).zone then (s.zone y).joinList ++ [i] else (s.zone y).joinList := by
  have hm : (s.reroute z i q).zone y =
      ((s.modZone z fun zn => { zn with joinList := zn.joinList.erase i }).modZone (s.point q).zone
        fun zn => { zn with joinList := zn.joinList ++ [i] }).zone y := by
    unfold State.reroute
    dsimp only
    split <;> rfl
  rw [hm, State.zone_modZone, State.zone_modZone, State.zone_modZone, if_neg hz]
  by_cases hy : y = z
  · subst hy
    rw [if_neg hz.symm, if_pos rfl, if_pos rfl]
  · rw [if_neg hy, if_neg hy]
    split
    next h => rw [h]
    next => rfl

/-- A granted heliostat joins the list of its zone, and no other list changes (R71). -/
theorem State.joinList_grant (y : Nat) : ((s.grant z i).zone y).joinList =
    if y = z then (s.zone y).joinList ++ [i] else (s.zone y).joinList := by
  have hleft (u : State) : ((u.clearDeparture i).zone y).joinList = (u.zone y).joinList := by
    rw [State.zone_clearDeparture]
    split <;> rfl
  rw [State.grant, hleft, State.modHel_zone, State.zone_modZone]
  split
  next h => rw [h]
  next => rfl

end

/-! ### What settlements keep -/

/-- A property that each action of a settlement keeps: a shed turn (R68, R69), a grant for which there is room (R71),
the new state of the zone, and the events (R66 to R72). -/
structure SettleKeeps (P : State → Prop) : Prop where
  shed : ∀ s z, P s → P (s.shedOne z)
  grant : ∀ s z i, s.grantable z i = true → P s → P (s.grant z i)
  zoneState : ∀ s z x, P s → P (s.modZone z fun zn => { zn with state := x })
  raise : ∀ s d p, P s → P (s.raiseBoth d p)

namespace SettleKeeps
variable {P : State → Prop} (k : SettleKeeps P) {s : State}
include k

theorem shedLoop {z : Nat} (n : Nat) (h : P s) : P (shedLoop n z s) := by
  induction n generalizing s with
  | zero => exact h
  | succ n ih =>
    rw [Machine.shedLoop]
    split
    · exact ih (k.shed s z h)
    · exact h

theorem grantLoop {z : Nat} (n : Nat) (h : P s) : P (grantLoop n z s).1 := by
  induction n generalizing s with
  | zero => exact h
  | succ n ih =>
    cases hq : (s.zone z).queue with
    | nil => rw [Machine.grantLoop, hq]; exact h
    | cons i rest =>
      rw [grantLoop_head n hq]
      split
      next hg => exact ih (k.grant s z i hg h)
      next => exact h

theorem overStep {z : Nat} {was : ZState} (h : P s) : P (s.overStep z was) := by
  rw [State.overStep]
  split
  · exact k.zoneState s z _ h
  · exact k.raise _ _ _ (k.zoneState s z _ h)

theorem grantStep {z : Nat} (h : P s) : P (s.grantStep z) := by
  rw [State.grantStep]
  split
  · exact k.zoneState s z _ h
  split
  · exact k.zoneState s z _ h
  · exact k.zoneState _ z _ (k.grantLoop _ h)

/-- What is kept need only hold after the shed step of a settlement to hold after the settlement. -/
theorem settle_of_shedLoop {z : Nat} (h : P (Machine.shedLoop (s.zone z).joinList.length z s)) : P (s.settle z) := by
  have close (u : State) (hu : P u) :
      P (if u.overLimit z then u.overStep z (s.zone z).state else u.grantStep z) := by
    split
    · exact k.overStep hu
    · exact k.grantStep hu
  refine close _ ?_
  split
  · exact k.raise _ _ _ h
  · exact h

theorem settle (z : Nat) (h : P s) : P (s.settle z) := k.settle_of_shedLoop (k.shedLoop _ h)

theorem settleList (zs : List Nat) (h : P s) : P (s.settleList zs) := by
  induction zs generalizing s with
  | nil => exact h
  | cons z zs ih => exact ih (k.settle z h)

theorem settleAll (h : P s) : P s.settleAll := k.settleList _ h

end SettleKeeps

/-- Settlements do not touch the PAU. -/
theorem settleKeeps_pau (x : Pau) : SettleKeeps fun s => s.pau = x where
  shed s z h := (congrArg (·.pau) (s.shedOne_offTable z)).trans h
  grant s z i _ h := (congrArg (·.pau) (s.grant_offTable z i)).trans h
  zoneState _ _ _ h := h
  raise _ _ _ h := h

/-- Settlements do not touch the ports. -/
theorem settleKeeps_txn (p : Port) (x : Txn) : SettleKeeps fun s => s.txn p = x where
  shed s z h := (congrArg (·.txn p) (s.shedOne_offTable z)).trans h
  grant s z i _ h := (congrArg (·.txn p) (s.grant_offTable z i)).trans h
  zoneState _ _ _ h := h
  raise _ _ _ h := h

/-- An event that is pending stays so through settlements. -/
theorem settleKeeps_dPending (e : DEvent) : SettleKeeps fun s => s.dPending e = true where
  shed s z h := (congrArg (·.dPending e) (s.shedOne_offTable z)).trans h
  grant s z i _ h := (congrArg (·.dPending e) (s.grant_offTable z i)).trans h
  zoneState _ _ _ h := h
  raise s d p h := by
    change (s.raiseD d).dPending e = true
    rw [State.dPending_raiseD_iff, h, Bool.true_or]

/-! ### The limits of the zones -/

section
variable {s t : State} {z i : Nat}

theorem State.overLimit_eq_false_iff : s.overLimit z = false ↔ s.committed z ≤ s.limitW z := by
  rw [State.overLimit, decide_eq_false_iff_not, Nat.not_lt]

/-- No part of a settlement changes a heliostat's effective contribution (R15). -/
theorem SettleFrame.pEff_eq (h : SettleFrame s t) (i : Nat) : t.pEff (t.hel i) = s.pEff (s.hel i) := by
  obtain ⟨hhel, -, -, -, hrest⟩ := h
  have hscu : t.scu = s.scu := congrArg (·.scu) hrest
  have hseg : (t.hel i).segment = (s.hel i).segment := congrArg (·.segment) (hhel i)
  have hclear : (t.hel i).pClear = (s.hel i).pClear := congrArg (·.pClear) (hhel i)
  rw [State.pEff, State.pEff, State.shade, State.shade, hscu, hseg, hclear]

theorem SettleFrame.limitW_eq (h : SettleFrame s t) (z : Nat) : t.limitW z = s.limitW z := by
  obtain ⟨-, hzone, -⟩ := h
  change 1000 * (t.zone z).still.effectiveLimit = 1000 * (s.zone z).still.effectiveLimit
  rw [hzone]

/-- After part of a settlement a zone's committed flux is still a matter of who is in its join list (R64). -/
theorem SettleFrame.committed_eq (h : SettleFrame s t) (z : Nat) :
    t.committed z = ((t.zone z).joinList.map fun i => s.pEff (s.hel i)).sum + (s.zone z).stranded := by
  have hflux := h.pEff_eq
  obtain ⟨-, hzone, -⟩ := h
  have hstranded : (t.zone z).stranded = (s.zone z).stranded := congrArg (·.stranded) (hzone z)
  simp only [State.committed, State.joinSum, hflux, hstranded]

/-- A zone whose join list only loses members stays safe. -/
theorem SettleFrame.zoneSafe_of_sublist (h : SettleFrame s t)
    (hl : (t.zone z).joinList.Sublist (s.zone z).joinList) (hs : s.zoneSafe z) : t.zoneSafe z := by
  rcases hs with hlimit | hnil
  · left
    rw [State.overLimit_eq_false_iff] at hlimit ⊢
    have hsum := (hl.map fun i => s.pEff (s.hel i)).sum_le_sum fun _ _ => Nat.zero_le _
    rw [h.committed_eq, h.limitW_eq]
    exact (Nat.add_le_add_right hsum _).trans hlimit
  · exact .inr (List.sublist_nil.1 (hnil ▸ hl))

/-- A zone that a heliostat joins where there is room for it is safe. -/
theorem SettleFrame.zoneSafe_of_append (h : SettleFrame s t) (hl : (t.zone z).joinList = (s.zone z).joinList ++ [i])
    (hroom : s.committed z + s.pEff (s.hel i) ≤ s.limitW z) : t.zoneSafe z := by
  left
  rw [State.overLimit_eq_false_iff, h.committed_eq, h.limitW_eq, hl, List.map_append, List.sum_append]
  simp only [State.committed, State.joinSum] at hroom
  simp only [List.map_cons, List.map_nil, List.sum_cons, List.sum_nil]
  omega

/-- What a shed turn of zone `z` does to the join list of a zone: it loses a member at most, or gains one for which
there is room (R68, R69). -/
theorem State.joinList_shedOne (s : State) (z y : Nat) :
    ((s.shedOne z).zone y).joinList.Sublist (s.zone y).joinList
      ∨ ∃ i, ((s.shedOne z).zone y).joinList = (s.zone y).joinList ++ [i]
          ∧ s.committed y + s.pEff (s.hel i) ≤ s.limitW y := by
  cases hl : (s.zone z).joinList.getLast? with
  | none => rw [State.shedOne, hl]; exact .inl (.refl _)
  | some i =>
    rw [State.shedOne_of_newest hl]
    split
    next q hq =>
      obtain ⟨-, -, -, -, -, hz, -, hroom⟩ := (s.reroutePoint_eq_some z i q).1 hq
      rw [s.joinList_reroute z i q hz]
      split
      · exact .inl List.erase_sublist
      · split
        next hy => exact .inr ⟨i, rfl, hy ▸ hroom⟩
        next => exact .inl (.refl _)
    next =>
      rw [State.joinList_returned]
      split
      · exact .inl List.erase_sublist
      · exact .inl (.refl _)

/-- A shed turn takes one member out of the list of the zone that sheds. -/
theorem State.length_joinList_shedOne (s : State) (z : Nat) :
    ((s.shedOne z).zone z).joinList.length = (s.zone z).joinList.length - 1 := by
  cases hl : (s.zone z).joinList.getLast? with
  | none => rw [State.shedOne, hl, List.getLast?_eq_none_iff.1 hl]; rfl
  | some i =>
    have hmem : i ∈ (s.zone z).joinList := List.mem_of_getLast? hl
    rw [State.shedOne_of_newest hl]
    split
    next q hq =>
      obtain ⟨-, -, -, -, -, hz, -⟩ := (s.reroutePoint_eq_some z i q).1 hq
      rw [s.joinList_reroute z i q hz, if_pos rfl, List.length_erase_of_mem hmem]
    next => rw [State.joinList_returned, if_pos rfl, List.length_erase_of_mem hmem]

/-- A safe zone stays safe while other zones, or itself, settle. -/
theorem settleKeeps_zoneSafe (y : Nat) : SettleKeeps fun s => s.zoneSafe y where
  shed s z h := by
    rcases s.joinList_shedOne z y with hl | ⟨i, hl, hroom⟩
    · exact (s.shedOne_frame z).zoneSafe_of_sublist hl h
    · exact (s.shedOne_frame z).zoneSafe_of_append hl hroom
  grant s z i hg h := by
    have hl := s.joinList_grant z i y
    split at hl
    next hy =>
      rw [State.grantable, Bool.and_eq_true, decide_eq_true_eq] at hg
      exact (s.grant_frame z i).zoneSafe_of_append hl (hy ▸ hg.2)
    next => exact (s.grant_frame z i).zoneSafe_of_sublist (hl ▸ .refl _) h
  zoneState s z x h := by
    refine (SettleFrame.modZone s z (f := fun zn => { zn with state := x }) fun _ => rfl).zoneSafe_of_sublist ?_ h
    rw [State.zone_modZone]
    split
    next hy => rw [hy]
    next => exact .refl _
  raise s d p h := h

/-- The shed step ends with its zone safe (R67): each turn takes a member out, and with none left nothing is aimed. -/
theorem zoneSafe_shedLoop (n : Nat) (hn : (s.zone z).joinList.length ≤ n) : (shedLoop n z s).zoneSafe z := by
  induction n generalizing s with
  | zero => exact .inr (List.length_eq_zero_iff.1 (Nat.le_zero.1 hn))
  | succ n ih =>
    rw [shedLoop]
    split
    next => exact ih (by rw [State.length_joinList_shedOne]; omega)
    next hstop =>
      rw [Bool.and_eq_true, not_and_or, Bool.not_eq_true, Bool.not_eq_true, Bool.not_eq_false', List.isEmpty_iff]
        at hstop
      exact hstop

theorem State.zoneSafe_settle (s : State) (z : Nat) : (s.settle z).zoneSafe z :=
  (settleKeeps_zoneSafe z).settle_of_shedLoop (zoneSafe_shedLoop _ (Nat.le_refl _))

theorem State.zoneSafe_settleList {zs : List Nat} (hz : z ∈ zs) (s : State) : (s.settleList zs).zoneSafe z := by
  induction zs generalizing s with
  | nil => cases hz
  | cons y zs ih =>
    rcases List.mem_cons.1 hz with rfl | hz
    · exact (settleKeeps_zoneSafe z).settleList zs (s.zoneSafe_settle z)
    · exact ih hz _

/-- All zones settled, every one is safe (R66). -/
theorem State.zonesSafe_settleAll (s : State) : s.settleAll.zonesSafe :=
  fun _ hz => State.zoneSafe_settleList (List.mem_range.2 hz) s

end

end Sys2Proof.Machine
end

section
/-! PROOFS. What the engagement of defocus does to the field: each ON_TARGET heliostat goes to its rejoin queue as a
departure, once (R162). -/

namespace Sys2Proof.Machine

/-! ### Zones through the frame of a settlement -/

section
variable {s t : State}

theorem SettleFrame.assignedZone_eq (f : SettleFrame s t) (h : Hel) : t.assignedZone h = s.assignedZone h := by
  obtain ⟨-, -, hpoint, -⟩ := f
  have hzone (p : Nat) : (t.point p).zone = (s.point p).zone := congrArg (·.zone) (hpoint p)
  simp only [State.assignedZone, hzone]

theorem SettleFrame.joinZone_eq (f : SettleFrame s t) (h : Hel) : t.joinZone h = s.joinZone h := by
  obtain ⟨-, -, hpoint, -⟩ := f
  have hzone (p : Nat) : (t.point p).zone = (s.point p).zone := congrArg (·.zone) (hpoint p)
  have halternate (p : Nat) : (t.point p).alternate = (s.point p).alternate := congrArg (·.alternate) (hpoint p)
  simp only [State.joinZone, State.aimedPoint, State.alternateOf, hzone, halternate]

end

/-! ### The move of one heliostat -/

section
variable (s : State) (i j k z : Nat)

/-- The record of an ON_TARGET heliostat once defocus moved it to its queue as a departure (R162). -/
def State.defocusedHel (s : State) (i : Nat) : Hel :=
  { s.hel i with
      state := .queued
      onAlternate := false
      departing := true
      departureZone := some (s.joinZone (s.hel i)) }

/-- A departure enters the heliostat in its segment's urgent queue (R61). -/
theorem State.urgentEntered_depart (dst : HState) : UrgentEntered s (s.depart i dst) i := by
  intro k
  have hseg (k : Nat) : (s.clearAlternate i).seg k = s.seg k := by rw [State.clearAlternate_eq]; rfl
  simp only [State.depart, State.departFrom, State.urgentAdd, State.seg_modSeg, State.modHel_seg, State.modZone_seg,
    hseg]
  by_cases hk : k = (s.hel i).segment
  · subst hk
    by_cases hi : i ∈ (s.seg (s.hel i).segment).urgent <;> simp [hi]
  · simp [hk]

variable {s i}

theorem State.defocusOne_of_onTarget (ho : (s.hel i).state = .onTarget) :
    s.defocusOne i = (s.depart i .queued).enqueue i := if_pos ho

theorem State.defocusOne_of_ne (ho : (s.hel i).state ≠ .onTarget) : s.defocusOne i = s := if_neg ho

variable (s i)

theorem State.defocusOne_frame : SettleFrame s (s.defocusOne i) := by
  rw [State.defocusOne]
  split
  · exact (s.depart_frame i _).trans (State.enqueue_frame _ i)
  · exact .refl s

@[simp] theorem State.defocusOne_offTable : (s.defocusOne i).offTable = s.offTable := by
  rw [State.defocusOne]
  split
  · rw [State.enqueue_offTable, State.depart, State.departFrom_offTable]
  · rfl

theorem State.hel_defocusOne : (s.defocusOne i).hel j =
    if j = i ∧ (s.hel i).state = .onTarget then s.defocusedHel i else s.hel j := by
  by_cases ho : (s.hel i).state = .onTarget
  · rw [State.defocusOne_of_onTarget ho, State.hel_enqueue, State.hel_depart, State.hel_depart, if_pos rfl]
    by_cases hj : j = i
    · rw [if_pos hj, if_pos ⟨hj, ho⟩]; rfl
    · rw [if_neg hj, if_neg hj, if_neg (hj ·.1)]
  · rw [State.defocusOne_of_ne ho, if_neg (ho ·.2)]

variable {s i}

/-- The departure is counted in the zone it leaves (R61). -/
theorem State.pendingDepartures_defocusOne (ho : (s.hel i).state = .onTarget) :
    ((s.defocusOne i).zone z).pendingDepartures =
      if z = s.joinZone (s.hel i) then (s.zone z).pendingDepartures + 1 else (s.zone z).pendingDepartures := by
  have hq (u : State) : ((u.enqueue i).zone z).pendingDepartures = (u.zone z).pendingDepartures := by
    rw [State.zone_enqueue]
    split <;> rfl
  rw [State.defocusOne_of_onTarget ho, hq, State.zone_depart]
  split <;> rfl

/-- The heliostat goes to the tail of its assigned zone's queue (R28). -/
theorem State.queue_defocusOne (ho : (s.hel i).state = .onTarget) : ((s.defocusOne i).zone z).queue =
    if z = s.assignedZone (s.hel i) then (s.zone z).queue ++ [i] else (s.zone z).queue := by
  have hzone : (s.depart i .queued).assignedZone ((s.depart i .queued).hel i) = s.assignedZone (s.hel i) := by
    rw [(s.depart_frame i .queued).assignedZone_eq, State.hel_depart, if_pos rfl]
    rfl
  have hdepart : ((s.depart i .queued).zone z).queue = (s.zone z).queue := by
    rw [State.zone_depart]
    split <;> rfl
  rw [State.defocusOne_of_onTarget ho, State.zone_enqueue, hzone, ← hdepart]
  split <;> rfl

theorem State.urgentEntered_defocusOne (ho : (s.hel i).state = .onTarget) : UrgentEntered s (s.defocusOne i) i := by
  rw [State.defocusOne_of_onTarget ho]
  exact s.urgentEntered_depart i .queued

variable (s)

/-- The urgent queues only gain entries. -/
theorem State.urgent_subset_defocusOne : (s.seg k).urgent ⊆ ((s.defocusOne i).seg k).urgent := by
  by_cases ho : (s.hel i).state = .onTarget
  · rw [s.urgentEntered_defocusOne ho k]
    dsimp only
    split
    · exact List.subset_append_left _ _
    · exact List.Subset.refl _
  · rw [State.defocusOne_of_ne ho]
    exact List.Subset.refl _

/-- The rejoin queues only gain entries. -/
theorem State.queue_subset_defocusOne : (s.zone z).queue ⊆ ((s.defocusOne i).zone z).queue := by
  by_cases ho : (s.hel i).state = .onTarget
  · rw [State.queue_defocusOne z ho]
    split
    · exact List.subset_append_left _ _
    · exact List.Subset.refl _
  · rw [State.defocusOne_of_ne ho]
    exact List.Subset.refl _

end

/-! ### The moves of a list of heliostats -/

section
variable (s : State) (l : List Nat) {i : Nat}

theorem State.foldl_defocusOne_frame : SettleFrame s (l.foldl State.defocusOne s) := by
  induction l generalizing s with
  | nil => exact .refl s
  | cons a l ih => exact (s.defocusOne_frame a).trans (ih _)

theorem State.foldl_defocusOne_offTable : (l.foldl State.defocusOne s).offTable = s.offTable := by
  induction l generalizing s with
  | nil => rfl
  | cons a l ih => exact (ih _).trans (s.defocusOne_offTable a)

theorem State.hel_foldl_defocusOne (i : Nat) : (l.foldl State.defocusOne s).hel i =
    if i ∈ l ∧ (s.hel i).state = .onTarget then s.defocusedHel i else s.hel i := by
  induction l using List.reverseRecOn generalizing i with
  | nil => rw [if_neg (List.not_mem_nil ·.1), List.foldl_nil]
  | append_singleton l a ih =>
    have hjoin := (s.foldl_defocusOne_frame l).joinZone_eq
    rw [List.foldl_concat, State.hel_defocusOne]
    by_cases hi : i = a
    · subst hi
      by_cases ho : (s.hel i).state = .onTarget
      · by_cases hl : i ∈ l <;> simp [State.defocusedHel, ih, ho, hl, hjoin]
      · simp [ih, ho]
    · simp only [ih i, hi, false_and, if_false, List.mem_append, List.mem_singleton, or_false]

/-- The record of a heliostat that was not moved yet. -/
theorem State.hel_foldl_defocusOne_of_notMem {a : Nat} (ha : a ∉ l) :
    (l.foldl State.defocusOne s).hel a = s.hel a := by
  rw [State.hel_foldl_defocusOne, if_neg (ha ·.1)]

/-- A heliostat that the list names again is not ON_TARGET any more: it is not moved twice. -/
theorem State.foldl_defocusOne_concat_of_mem {a : Nat} (ha : a ∈ l) :
    (l ++ [a]).foldl State.defocusOne s = l.foldl State.defocusOne s := by
  have hmoved : ((l.foldl State.defocusOne s).hel a).state ≠ .onTarget := by
    rw [State.hel_foldl_defocusOne]
    split
    next => exact HState.noConfusion
    next hn => exact fun ho => hn ⟨ha, ho⟩
  rw [List.foldl_concat, State.defocusOne_of_ne hmoved]

/-- Each heliostat that is moved waits in its segment's urgent queue and in its assigned zone's queue (R61, R28). -/
theorem State.waits_foldl_defocusOne (hi : i ∈ l) (ho : (s.hel i).state = .onTarget) :
    i ∈ ((l.foldl State.defocusOne s).seg (s.hel i).segment).urgent
      ∧ i ∈ ((l.foldl State.defocusOne s).zone (s.assignedZone (s.hel i))).queue := by
  induction l using List.reverseRecOn with
  | nil => cases hi
  | append_singleton l a ih =>
    by_cases hl : i ∈ l
    · rw [List.foldl_concat]
      exact (ih hl).imp (State.urgent_subset_defocusOne _ _ ·) (State.queue_subset_defocusOne _ _ ·)
    · obtain rfl : i = a := by simpa [hl] using hi
      have hhel := s.hel_foldl_defocusOne_of_notMem l hl
      have hassigned := (s.foldl_defocusOne_frame l).assignedZone_eq
      rw [List.foldl_concat]
      generalize l.foldl State.defocusOne s = u at hhel hassigned ⊢
      rw [← hhel] at ho
      rw [← hhel, ← hassigned, u.urgentEntered_defocusOne ho, State.queue_defocusOne _ ho]
      by_cases hu : i ∈ (u.seg (u.hel i).segment).urgent <;> simp [hu]

/-- The heliostats of a list that are ON_TARGET and counted in a zone's join list, each once. -/
def State.aimedAmong (s : State) (l : List Nat) (z : Nat) : Finset Nat :=
  l.toFinset.filter fun i => (s.hel i).state = .onTarget ∧ s.joinZone (s.hel i) = z

theorem State.mem_aimedAmong {z : Nat} : i ∈ s.aimedAmong l z ↔
    i ∈ l ∧ (s.hel i).state = .onTarget ∧ s.joinZone (s.hel i) = z := by
  rw [State.aimedAmong, Finset.mem_filter, List.mem_toFinset]

theorem State.aimedAmong_concat (a z : Nat) : s.aimedAmong (l ++ [a]) z =
    if (s.hel a).state = .onTarget ∧ s.joinZone (s.hel a) = z then insert a (s.aimedAmong l z)
    else s.aimedAmong l z := by
  have hl : (l ++ [a]).toFinset = insert a l.toFinset := by
    rw [List.toFinset_append, Finset.union_comm]; rfl
  rw [State.aimedAmong, hl, Finset.filter_insert]
  rfl

/-- The zones' pending departures count the heliostats that are moved, each once (R61). -/
theorem State.pendingDepartures_foldl_defocusOne (z : Nat) :
    ((l.foldl State.defocusOne s).zone z).pendingDepartures =
      (s.zone z).pendingDepartures + (s.aimedAmong l z).card := by
  induction l using List.reverseRecOn with
  | nil => rfl
  | append_singleton l a ih =>
    by_cases ha : a ∈ l
    · have hsame : s.aimedAmong (l ++ [a]) z = s.aimedAmong l z := by
        ext i
        have hi : i = a → i ∈ l := (· ▸ ha)
        rw [State.mem_aimedAmong, State.mem_aimedAmong, List.mem_append, List.mem_singleton, or_iff_left_of_imp hi]
      rw [State.foldl_defocusOne_concat_of_mem s l ha, hsame, ih]
    · have hnew : a ∉ s.aimedAmong l z := fun h => ha ((s.mem_aimedAmong l).1 h).1
      have hhel := s.hel_foldl_defocusOne_of_notMem l ha
      have hjoin := (s.foldl_defocusOne_frame l).joinZone_eq
      rw [List.foldl_concat, State.aimedAmong_concat]
      by_cases ho : (s.hel a).state = .onTarget
      · rw [State.pendingDepartures_defocusOne _ (by rwa [hhel]), hhel, hjoin, ih]
        by_cases hz : s.joinZone (s.hel a) = z
        · rw [if_pos hz.symm, if_pos ⟨ho, hz⟩, Finset.card_insert_of_notMem hnew, Nat.add_assoc]
        · rw [if_neg (Ne.symm hz), if_neg (hz ·.2)]
      · rw [State.defocusOne_of_ne (by rwa [hhel]), if_neg (ho ·.1), ih]

end

/-! ### The whole field -/

section
variable (s : State) (c : Cause)

/-- A slot that does not hold the value of an unlisted one is listed. -/
theorem Tab.mem_of_get_ne {α : Type} {d : α} {t : Tab α} {i : Nat} (h : Tab.get d t i ≠ d) :
    (i, Tab.get d t i) ∈ t := by
  induction t with
  | nil => exact absurd rfl h
  | cons e t ih =>
    obtain ⟨k, v⟩ := e
    by_cases hk : k = i
    · rw [Tab.get, if_pos hk, hk]
      exact List.mem_cons_self
    · rw [Tab.get, if_neg hk] at h ⊢
      exact List.mem_cons_of_mem _ (ih h)

theorem State.mem_present_of_onTarget {i : Nat} (ho : (s.hel i).state = .onTarget) : i ∈ s.present := by
  have hlisted : (i, s.hel i) ∈ s.hels :=
    Tab.mem_of_get_ne (d := Hel.empty) fun he => by
      rw [show s.hel i = Hel.empty from he] at ho
      cases ho
  exact List.mem_map.2 ⟨_, List.mem_filter.2 ⟨hlisted, by rw [ho]; rfl⟩, rfl⟩

theorem State.card_aimedAmong_present (z : Nat) : (s.aimedAmong s.present z).card = (s.aimedAt z).length := by
  have hset : s.aimedAmong s.present z = (s.aimedAt z).toFinset := by
    ext i
    simp [State.mem_aimedAmong, State.aimedAt]
  rw [hset]
  exact List.toFinset_card_of_nodup (s.present.nodup_dedup.filter _)

/-- The field when an engagement has moved every ON_TARGET heliostat, before its events and FIELD_CLEAR (R162). -/
def State.defocusMoved (s : State) (c : Cause) : State :=
  s.present.foldl State.defocusOne { s with pau := s.pau.engage c }

theorem State.defocusMoved_frame : SettleFrame { s with pau := s.pau.engage c } (s.defocusMoved c) :=
  State.foldl_defocusOne_frame _ _

theorem State.defocusMoved_offTable : (s.defocusMoved c).offTable = { s with pau := s.pau.engage c }.offTable :=
  State.foldl_defocusOne_offTable _ _

theorem State.hel_defocusMoved (i : Nat) : (s.defocusMoved c).hel i =
    if (s.hel i).state = .onTarget then s.defocusedHel i else s.hel i := by
  rw [State.defocusMoved, State.hel_foldl_defocusOne]
  by_cases ho : (s.hel i).state = .onTarget
  · rw [if_pos ⟨s.mem_present_of_onTarget ho, ho⟩, if_pos ho]; rfl
  · rw [if_neg (ho ·.2), if_neg ho]; rfl

theorem State.pendingDepartures_defocusMoved (z : Nat) : ((s.defocusMoved c).zone z).pendingDepartures =
    (s.zone z).pendingDepartures + (s.aimedAt z).length := by
  rw [← State.card_aimedAmong_present]
  exact State.pendingDepartures_foldl_defocusOne _ _ z

theorem State.waits_defocusMoved {i : Nat} (ho : (s.hel i).state = .onTarget) :
    i ∈ ((s.defocusMoved c).seg (s.hel i).segment).urgent
      ∧ i ∈ ((s.defocusMoved c).zone (s.assignedZone (s.hel i))).queue :=
  State.waits_foldl_defocusOne { s with pau := s.pau.engage c } _ (s.mem_present_of_onTarget ho) ho

end

end Sys2Proof.Machine
end

section
/-! PROOFS. Engagement and release of defocus (R162, R166), and the deliveries of FIELD_DEFOCUS and FIELD_RELEASE
(R161). -/

namespace Sys2Proof.Machine

/-! ### Engagement -/

section
variable (s : State) (c : Cause)

/-- The state in which an engagement decides whether it raises DEFOCUS_COMPLETE (R162, R171). -/
def State.defocusMarked (s : State) (c : Cause) : State :=
  ((s.defocusMoved c).raiseD .defocusChange).refreshClear

theorem State.engageDefocus_eq_ite : s.engageDefocus c =
    if (s.defocusMarked c).pau.fieldClear then (s.defocusMarked c).raiseP .defocusComplete
    else s.defocusMarked c := by
  unfold State.engageDefocus State.defocusMarked State.defocusMoved
  rfl

/-- What does not read the protection event set does not see whether DEFOCUS_COMPLETE was raised. -/
theorem State.engageDefocus_congr {α : Type} (g : State → α) (hg : ∀ u : State, g (u.raiseP .defocusComplete) = g u) :
    g (s.engageDefocus c) = g (s.defocusMarked c) := by
  rw [State.engageDefocus_eq_ite]
  split
  · exact hg _
  · rfl

theorem State.hel_engageDefocus (i : Nat) : (s.engageDefocus c).hel i =
    if (s.hel i).state = .onTarget then s.defocusedHel i else s.hel i := by
  rw [s.engageDefocus_congr c (·.hel i) fun _ => rfl, State.defocusMarked, State.refreshClear_hel, State.raiseD_hel,
    State.hel_defocusMoved]

theorem State.zone_engageDefocus (z : Nat) : (s.engageDefocus c).zone z = (s.defocusMoved c).zone z := by
  rw [s.engageDefocus_congr c (·.zone z) fun _ => rfl, State.defocusMarked, State.refreshClear_zone, State.raiseD_zone]

theorem State.seg_engageDefocus (k : Nat) : (s.engageDefocus c).seg k = (s.defocusMoved c).seg k := by
  rw [s.engageDefocus_congr c (·.seg k) fun _ => rfl, State.defocusMarked, State.refreshClear_seg, State.raiseD_seg]

theorem State.txn_dispatch_engageDefocus : (s.engageDefocus c).txn .dispatch = s.txn .dispatch := by
  rw [s.engageDefocus_congr c (·.txn .dispatch) fun _ => rfl, State.defocusMarked, State.txn, State.refreshClear_dpt,
    State.raiseD_dpt]
  exact congrArg (·.dpt) (s.defocusMoved_offTable c)

theorem State.pau_engageDefocus : (s.engageDefocus c).pau =
    { s.pau.engage c with fieldClear := ((s.defocusMoved c).raiseD .defocusChange).fieldIsClear } := by
  have hpau : (s.defocusMoved c).pau = s.pau.engage c := congrArg (·.pau) (s.defocusMoved_offTable c)
  rw [s.engageDefocus_congr c (·.pau) fun _ => rfl, State.defocusMarked, State.refreshClear_pau, State.raiseD_pau, hpau]

theorem State.dPending_engageDefocus : (s.engageDefocus c).dPending .defocusChange = true := by
  rw [s.engageDefocus_congr c (·.dPending .defocusChange) fun _ => rfl, State.dPending, State.defocusMarked,
    State.refreshClear_devents]
  exact State.dPending_raiseD _ _

/-- An engagement that ends with the field clear raises DEFOCUS_COMPLETE (R162). -/
theorem State.pPending_engageDefocus (h : (s.engageDefocus c).pau.fieldClear = true) :
    (s.engageDefocus c).pPending .defocusComplete = true := by
  rw [s.engageDefocus_congr c (·.pau) fun _ => rfl] at h
  rw [State.engageDefocus_eq_ite, if_pos h]
  exact State.pPending_raiseP _ _

theorem State.engageDefocus_frame : SettleFrame { s with pau := s.pau.engage c } (s.engageDefocus c) := by
  have hmarked : SettleFrame { s with pau := s.pau.engage c } (s.defocusMarked c) :=
    ((s.defocusMoved_frame c).trans (.raiseD _ _)).trans (State.refreshClear_frame _)
  rw [State.engageDefocus_eq_ite]
  split
  · exact hmarked.trans (.raiseP _ _)
  · exact hmarked

/-- An engagement does what the model's `DefocusEngaged` says (R162). -/
theorem State.defocusEngaged_engageDefocus : DefocusEngaged s (s.engageDefocus c) c := by
  have hpau := s.pau_engageDefocus c
  refine ⟨fun i => ?_, ⟨fun i ho => ?_, fun z => ?_⟩, fun i ho => ?_, ?_, ?_, ?_, ?_, s.dPending_engageDefocus c,
    s.pPending_engageDefocus c⟩
  · rw [State.hel_engageDefocus]
    split <;> rfl
  · rw [State.hel_engageDefocus, if_pos ho, State.seg_engageDefocus]
    exact ⟨rfl, rfl, rfl, (s.waits_defocusMoved c ho).1⟩
  · rw [State.zone_engageDefocus, State.pendingDepartures_defocusMoved]
  · rw [State.zone_engageDefocus]
    exact (s.waits_defocusMoved c ho).2
  all_goals rw [hpau, Pau.engage]

theorem State.lateCount_of_bare_eq {t u : State} (h : t.bare = u.bare) : t.pau.lateCount = u.pau.lateCount :=
  congrArg (·.pau.lateCount) h

/-- What a delivery writes beside an engagement is no part of what `DefocusEngaged` says. -/
theorem DefocusEngaged.of_bare_eq {s t u : State} {c : Cause} (h : t.bare = u.bare) (hu : DefocusEngaged s u c) :
    DefocusEngaged s t c := by
  have ht : DefocusEngaged s t.bare c := h ▸ (hu : DefocusEngaged s u.bare c)
  exact ht

end

/-! ### FIELD_DEFOCUS -/

section
variable {s : State} (hr : s.accepts .fieldDefocus = true)
include hr

/-- FIELD_DEFOCUS where defocus is in effect changes nothing (R161). -/
theorem fieldDefocus_keeps_of_defocus (hd : s.pau.defocus = true) :
    ∃ t, exec .fieldDefocus s = .next t ∧ Delivered s t .protection .done ∧ t.bare = s.bare :=
  exec_taken (w := ⟨.protection, 0x84, []⟩) rfl hr rfl (congrArg (·, Code.done) (if_pos hd)) rfl rfl rfl

theorem fieldDefocus_engages_of_not_defocus (hd : s.pau.defocus = false) :
    ∃ t, exec .fieldDefocus s = .next t ∧ Delivered s t .protection .done ∧ DefocusEngaged s t .protection
      ∧ SettleFrame { s with pau := s.pau.engage .protection } t := by
  let u : State := s.setTxn .protection (Txn.received ⟨.protection, 0x84, []⟩)
  have hsup : (u.engageDefocus .protection).pau.supLeft = s.pau.supLeft := by rw [State.pau_engageDefocus]; rfl
  obtain ⟨t, hexec, hdel, hbare⟩ :=
    exec_taken (w := ⟨.protection, 0x84, []⟩) (u := u.engageDefocus .protection) rfl hr rfl
      (congrArg (·, Code.done) (if_neg (ne_true_of_eq_false hd))) (u.txn_dispatch_engageDefocus .protection) hsup rfl
  have hengaged : DefocusEngaged s (u.engageDefocus .protection) .protection := u.defocusEngaged_engageDefocus _
  have hframe : SettleFrame { s with pau := s.pau.engage .protection } (u.engageDefocus .protection) :=
    u.engageDefocus_frame _
  exact ⟨t, hexec, hdel, hengaged.of_bare_eq hbare, hframe.trans (.of_bare_eq hbare)⟩

end

/-! ### Release -/

section
variable (s : State)

/-- The state with no defocus in effect: flag, cause and deadline countdown cleared (R166). -/
def State.undefocused (s : State) : State :=
  { s with pau := { s.pau with defocus := false, cause := .none, deadlineLeft := none } }

/-- The field after a release announced itself and settled all zones, before FIELD_CLEAR is refreshed (R166). -/
def State.undefocusedSettled (s : State) : State := (s.undefocused.raiseD .defocusChange).settleAll

theorem State.releaseDefocus_eq : s.releaseDefocus = s.undefocusedSettled.refreshClear := by
  simp only [State.releaseDefocus, State.undefocusedSettled, State.undefocused]

theorem State.releaseDefocus_frame : SettleFrame s.undefocused s.releaseDefocus := by
  rw [State.releaseDefocus_eq]
  exact ((SettleFrame.raiseD _ _).trans (State.settleAll_frame _)).trans (State.refreshClear_frame _)

theorem State.zonesSafe_releaseDefocus : s.releaseDefocus.zonesSafe := by
  intro z hz
  rw [State.releaseDefocus_eq]
  refine (State.refreshClear_frame _).zoneSafe_of_sublist ?_ (State.zonesSafe_settleAll _ z hz)
  rw [State.refreshClear_zone]

theorem State.dPending_releaseDefocus : s.releaseDefocus.dPending .defocusChange = true := by
  rw [State.releaseDefocus_eq, State.dPending, State.refreshClear_devents]
  exact (settleKeeps_dPending .defocusChange).settleAll (State.dPending_raiseD _ _)

theorem State.pau_releaseDefocus : s.releaseDefocus.pau =
    { s.undefocused.pau with fieldClear := s.undefocusedSettled.fieldIsClear } := by
  have hpau : s.undefocusedSettled.pau = s.undefocused.pau := (settleKeeps_pau _).settleAll rfl
  rw [State.releaseDefocus_eq, State.refreshClear_pau, hpau]

theorem State.txn_dispatch_releaseDefocus : s.releaseDefocus.txn .dispatch = s.txn .dispatch := by
  rw [State.releaseDefocus_eq, State.txn, State.refreshClear_dpt]
  exact (settleKeeps_txn .dispatch (s.txn .dispatch)).settleAll rfl

end

/-! ### FIELD_RELEASE -/

section
variable {s : State} (hr : s.accepts .fieldRelease = true)
include hr

/-- FIELD_RELEASE where no defocus is in effect changes nothing (R166). -/
theorem fieldRelease_keeps_of_not_defocus (hd : s.pau.defocus = false) :
    ∃ t, exec .fieldRelease s = .next t ∧ Delivered s t .protection .done ∧ t.bare = s.bare :=
  exec_taken (w := ⟨.protection, 0x85, []⟩) rfl hr rfl
    (congrArg (·, Code.done) (if_neg (ne_true_of_eq_false hd))) rfl rfl rfl

theorem fieldRelease_releases_of_defocus (hd : s.pau.defocus = true) :
    ∃ t, exec .fieldRelease s = .next t ∧ Delivered s t .protection .done ∧ t.dPending .defocusChange = true
      ∧ t.zonesSafe ∧ t.pau.lateCount = s.pau.lateCount ∧ SettleFrame s.undefocused t := by
  let u : State := s.setTxn .protection (Txn.received ⟨.protection, 0x85, []⟩)
  have hsup : u.releaseDefocus.pau.supLeft = s.pau.supLeft := by rw [State.pau_releaseDefocus]; rfl
  obtain ⟨t, hexec, hdel, hbare⟩ :=
    exec_taken (w := ⟨.protection, 0x85, []⟩) (u := u.releaseDefocus) rfl hr rfl (congrArg (·, Code.done) (if_pos hd))
      u.txn_dispatch_releaseDefocus hsup rfl
  have hreceived : SettleFrame s.undefocused u.undefocused := .of_bare_eq rfl
  have hframe : SettleFrame u.releaseDefocus t := .of_bare_eq hbare
  have hlate : t.pau.lateCount = u.releaseDefocus.pau.lateCount := State.lateCount_of_bare_eq hbare
  refine ⟨t, hexec, hdel, ?_, fun z hz => ?_, ?_, (hreceived.trans u.releaseDefocus_frame).trans hframe⟩
  · rw [State.dPending_of_bare_eq hbare, State.dPending_releaseDefocus]
  · refine hframe.zoneSafe_of_sublist ?_ (u.zonesSafe_releaseDefocus z hz)
    rw [State.zone_of_bare_eq hbare]
  · rw [hlate, State.pau_releaseDefocus]
    rfl

end

/-- Settles O51: each command's two clauses are its two deliveries, by whether defocus is in effect. -/
theorem defocus : Obligations.Defocus := by
  unfold Obligations.Defocus
  refine ⟨fun s hr => ?_, fun s hr => ?_⟩
  · by_cases hd : s.pau.defocus = true
    · obtain ⟨t, hexec, hdel, hbare⟩ := fieldDefocus_keeps_of_defocus hr hd
      exact ⟨t, hexec, hdel,
        fun _ => ⟨hbare, congrArg (·.pau.cause) hbare, congrArg (·.pau.deadlineLeft) hbare,
          State.lateCount_of_bare_eq hbare⟩,
        fun hn => absurd hd (ne_true_of_eq_false hn)⟩
    · rw [Bool.not_eq_true] at hd
      obtain ⟨t, hexec, hdel, hengaged, hframe⟩ := fieldDefocus_engages_of_not_defocus hr hd
      exact ⟨t, hexec, hdel, fun hn => absurd hn (ne_true_of_eq_false hd), fun _ => ⟨hengaged, hframe⟩⟩
  · by_cases hd : s.pau.defocus = true
    · obtain ⟨t, hexec, hdel, hpending, hsafe, hlate, hframe⟩ := fieldRelease_releases_of_defocus hr hd
      exact ⟨t, hexec, hdel, fun hn => absurd hd (ne_true_of_eq_false hn), fun _ => ⟨hpending, hsafe, hlate, hframe⟩⟩
    · rw [Bool.not_eq_true] at hd
      obtain ⟨t, hexec, hdel, hbare⟩ := fieldRelease_keeps_of_not_defocus hr hd
      exact ⟨t, hexec, hdel, fun _ => hbare, fun hn => absurd hn (ne_true_of_eq_false hd)⟩

end Sys2Proof.Machine
end

section
/-! PROOFS. Pending events and the attention outputs: ACK_EVENTS on each port (R195, R197), and what pin reset leaves of
the ports and of the protection settings (R198). -/

namespace Sys2Proof.Machine

/-! ### Event sets as bit vectors -/

/-- Events named by `m` leave the event set `x`; the two widths need not agree. -/
theorem getLsbD_and_not_setWidth {w v : Nat} (x : BitVec w) (m : BitVec v) (n : Nat) :
    (x &&& ~~~m.setWidth w).getLsbD n = (x.getLsbD n && !m.getLsbD n) := by
  rw [BitVec.getLsbD_and, BitVec.getLsbD_not, BitVec.getLsbD_setWidth]
  rcases Nat.lt_or_ge n w with hn | hn
  · rw [decide_eq_true hn, Bool.true_and, Bool.true_and]
  · rw [BitVec.getLsbD_of_ge x n hn, Bool.false_and, Bool.false_and]

theorem getLsbD_and_not {w : Nat} (x m : BitVec w) (n : Nat) :
    (x &&& ~~~m).getLsbD n = (x.getLsbD n && !m.getLsbD n) := by
  rw [← getLsbD_and_not_setWidth, BitVec.setWidth_eq]

theorem and_not_ne_zero_iff {w : Nat} (x m : BitVec w) :
    x &&& ~~~m ≠ 0 ↔ ∃ n < w, x.getLsbD n = true ∧ m.getLsbD n = false := by
  constructor
  · contrapose!
    intro h
    refine BitVec.eq_of_getLsbD_eq fun n hn => ?_
    rw [getLsbD_and_not, BitVec.ofNat_eq_ofNat, BitVec.getLsbD_zero]
    simpa using h n hn
  · rintro ⟨n, -, hx, hm⟩ hzero
    have hbit : (x &&& ~~~m).getLsbD n = true := by rw [getLsbD_and_not, hx, hm]; rfl
    simp [hzero] at hbit

section
variable {α : Type} {pos : α → Nat} {w : Nat} {es : List α} (hes : es.map pos = List.range w)
include hes

theorem exists_pos_eq_of_map_eq_range {n : Nat} (hn : n < w) : ∃ e, pos e = n := by
  have hmem : n ∈ es.map pos := hes ▸ List.mem_range.2 hn
  obtain ⟨e, -, he⟩ := List.mem_map.1 hmem
  exact ⟨e, he⟩

/-- Where each position of an event set is an event's, the set has an unmasked member exactly where an event is both
pending and unmasked. -/
theorem and_not_ne_zero_iff_exists_event (x m : BitVec w) :
    x &&& ~~~m ≠ 0 ↔ ∃ e, x.getLsbD (pos e) = true ∧ m.getLsbD (pos e) = false := by
  rw [and_not_ne_zero_iff]
  constructor
  · rintro ⟨n, hn, h⟩
    obtain ⟨e, rfl⟩ := exists_pos_eq_of_map_eq_range hes hn
    exact ⟨e, h⟩
  · rintro ⟨e, h⟩
    exact ⟨pos e, BitVec.lt_of_getLsbD h.1, h⟩

end

/-! ### The events of each port -/

/-- The dispatch events in the order of their positions (R190). -/
def DEvent.inOrder : List DEvent :=
  [.sweepDone, .epochOverrun, .sunHeld, .heliostatOffline, .heliostatFault, .trackingError, .zoneShed, .zoneOver,
    .segmentLocked, .polarityInverted, .rateFallback, .passOverrun, .maintReturned, .captureOverrun, .sensorStuck,
    .stowChange, .defocusChange, .supervisionExpired]

/-- The protection events in the order of their positions (R190). -/
def PEvent.inOrder : List PEvent :=
  [.zoneShed, .zoneOver, .defocusComplete, .defocusLate, .stowChange, .sensorStuck, .supervisionExpired,
    .heliostatFault]

theorem DEvent.map_pos_inOrder : DEvent.inOrder.map DEvent.pos = List.range 18 := rfl

theorem PEvent.map_pos_inOrder : PEvent.inOrder.map PEvent.pos = List.range 8 := rfl

/-! ### The attention outputs -/

section
variable (s : State)

theorem State.attention_dispatch_iff :
    s.attention .dispatch = true ↔ ∃ e : DEvent, s.dPending e = true ∧ s.dmask.getLsbD e.pos = false :=
  bne_iff_ne.trans (and_not_ne_zero_iff_exists_event DEvent.map_pos_inOrder s.devents s.dmask)

theorem State.attention_protection_iff :
    s.attention .protection = true ↔ ∃ e : PEvent, s.pPending e = true ∧ s.pmask.getLsbD e.pos = false :=
  bne_iff_ne.trans (and_not_ne_zero_iff_exists_event PEvent.map_pos_inOrder s.pevents s.pmask)

end

section
variable {t u : State} (h : t.bare = u.bare)
include h

/-- Which protection events are pending is not written by a delivery. -/
theorem State.pPending_of_bare_eq (e : PEvent) : t.pPending e = u.pPending e := congrArg (·.pPending e) h

/-- The attention outputs are not written by a delivery. -/
theorem State.attention_of_bare_eq (p : Port) : t.attention p = u.attention p := by
  cases p
  · exact congrArg (·.attention .dispatch) h
  · exact congrArg (·.attention .protection) h

end

/-! ### Acknowledgement -/

section
variable (s : State) (m : BitVec 24)

theorem State.dPending_acknowledge (e : DEvent) :
    (s.acknowledge .dispatch m).dPending e = (s.dPending e && !m.getLsbD e.pos) :=
  getLsbD_and_not_setWidth s.devents m e.pos

theorem State.pPending_acknowledge (e : PEvent) :
    (s.acknowledge .protection m).pPending e = (s.pPending e && !m.getLsbD e.pos) :=
  getLsbD_and_not_setWidth s.pevents m e.pos

theorem State.attention_acknowledge_ne {p q : Port} (h : q ≠ p) :
    (s.acknowledge p m).attention q = s.attention q := by
  cases p <;> cases q
  · exact absurd rfl h
  · rfl
  · rfl
  · exact absurd rfl h

/-- Where each pending and unmasked event is named, the attention output is released (R197). -/
theorem State.attention_acknowledge_dispatch
    (h : ∀ e : DEvent, s.dPending e = true → s.dmask.getLsbD e.pos = false → m.getLsbD e.pos = true) :
    (s.acknowledge .dispatch m).attention .dispatch = false := by
  rw [Bool.eq_false_iff, ne_eq, State.attention_dispatch_iff]
  rintro ⟨e, hpending, hmask⟩
  obtain ⟨hs, hm⟩ : s.dPending e = true ∧ m.getLsbD e.pos = false := by
    simpa [State.dPending_acknowledge] using hpending
  exact absurd (h e hs hmask) (ne_true_of_eq_false hm)

/-- `State.attention_acknowledge_dispatch` for the protection port. -/
theorem State.attention_acknowledge_protection
    (h : ∀ e : PEvent, s.pPending e = true → s.pmask.getLsbD e.pos = false → m.getLsbD e.pos = true) :
    (s.acknowledge .protection m).attention .protection = false := by
  rw [Bool.eq_false_iff, ne_eq, State.attention_protection_iff]
  rintro ⟨e, hpending, hmask⟩
  obtain ⟨hs, hm⟩ : s.pPending e = true ∧ m.getLsbD e.pos = false := by
    simpa [State.pPending_acknowledge] using hpending
  exact absurd (h e hs hmask) (ne_true_of_eq_false hm)

end

/-! ### ACK_EVENTS -/

theorem ackEvents_acknowledges {s : State} {p : Port} {m : BitVec 24} (hr : s.accepts (.ackEvents p m) = true) :
    ∃ t, exec (.ackEvents p m) s = .next t ∧ Delivered s t p .done ∧ t.bare = (s.acknowledge p m).bare := by
  cases p
  · exact exec_taken rfl hr rfl rfl rfl rfl rfl
  · exact exec_taken rfl hr rfl rfl rfl rfl rfl

/-- Settles O9: each port's command is one delivery of `State.acknowledge`, read event by event. -/
theorem eventsAndAttention : Obligations.EventsAndAttention := by
  unfold Obligations.EventsAndAttention
  refine ⟨fun s m => ⟨fun hr => ?_, fun hr => ?_⟩,
    fun s => ⟨s.attention_dispatch_iff, s.attention_protection_iff⟩⟩
  · obtain ⟨t, hexec, hdel, hbare⟩ := ackEvents_acknowledges hr
    refine ⟨t, hexec, hdel, fun e => ?_, ?_, ?_, fun hnamed => ?_⟩
    · rw [State.dPending_of_bare_eq hbare, State.dPending_acknowledge]
    · rw [hbare, State.devents_of_bare_eq hbare]; rfl
    · rw [State.attention_of_bare_eq hbare, State.attention_acknowledge_ne _ _ (by decide)]
    · rw [State.attention_of_bare_eq hbare, State.attention_acknowledge_dispatch _ _ hnamed]
  · obtain ⟨t, hexec, hdel, hbare⟩ := ackEvents_acknowledges hr
    have hpevents : t.pevents = (s.acknowledge .protection m).pevents := congrArg (·.pevents) hbare
    refine ⟨t, hexec, hdel, fun e => ?_, ?_, ?_, fun hnamed => ?_⟩
    · rw [State.pPending_of_bare_eq hbare, State.pPending_acknowledge]
    · rw [hbare, hpevents]; rfl
    · rw [State.attention_of_bare_eq hbare, State.attention_acknowledge_ne _ _ (by decide)]
    · rw [State.attention_of_bare_eq hbare, State.attention_acknowledge_protection _ _ hnamed]

/-! ### Pin reset -/

/-- Empty event sets drive no attention output (R197). -/
theorem State.attention_eq_false_of_no_events {s : State} (hd : s.devents = 0) (hp : s.pevents = 0) (p : Port) :
    s.attention p = false := by
  cases p
  · simp [State.attention, hd]
  · simp [State.attention, hp]

theorem State.dPending_eq_false_of_no_events {s : State} (hd : s.devents = 0) (e : DEvent) : s.dPending e = false := by
  rw [State.dPending, hd, BitVec.ofNat_eq_ofNat, BitVec.getLsbD_zero]

theorem State.pPending_eq_false_of_no_events {s : State} (hp : s.pevents = 0) (e : PEvent) : s.pPending e = false := by
  rw [State.pPending, hp, BitVec.ofNat_eq_ofNat, BitVec.getLsbD_zero]

theorem DEvent.getLsbD_allOnes_pos (e : DEvent) : (BitVec.allOnes 18).getLsbD e.pos = true := by
  rw [BitVec.getLsbD_allOnes, decide_eq_true e.pos_lt]

theorem PEvent.getLsbD_allOnes_pos (e : PEvent) : (BitVec.allOnes 8).getLsbD e.pos = true := by
  rw [BitVec.getLsbD_allOnes, decide_eq_true e.pos_lt]

/-- Settles O3: `execPinReset` writes every field read here with its constant of `State.reset`; the events follow from
the empty sets and the full masks. -/
theorem pinResetPorts : Obligations.PinResetPorts := by
  unfold Obligations.PinResetPorts
  intro s
  exact ⟨_, rfl, rfl, rfl,
    fun e => ⟨State.dPending_eq_false_of_no_events rfl e, e.getLsbD_allOnes_pos⟩,
    fun e => ⟨State.pPending_eq_false_of_no_events rfl e, e.getLsbD_allOnes_pos⟩,
    rfl, rfl, rfl, fun _ => ⟨rfl, rfl, rfl, rfl⟩, rfl, rfl, rfl, rfl,
    State.attention_eq_false_of_no_events rfl rfl⟩

end Sys2Proof.Machine
end

section
/-! PROOFS. TablesStayCanonical fails: a settlement sheds whoever its zone's join list names, and makes QUEUED even a record
that is ABSENT; two such records then are present at the address of the empty record. -/

-- One proof after another: begun all at once, the proofs of the whole text outgrow the check's memory.
set_option Elab.async false

namespace Sys2Proof.Machine

/-- A state whose tables are canonical, with no heliostat present, and whose zone 0 lists two absent ones. -/
def State.listsAbsent : State :=
  { State.reset with
      zones := [(0, { Zone.reset with stranded := 1, joinList := [0, 1] })]
      ppt := { Txn.reset with phase := .command }
      pending := [.setProtectLimit 0 0] }

theorem State.listsAbsent_addressesUnique : State.listsAbsent.addressesUnique :=
  fun _ _ hi => absurd rfl hi

/-- The settlement of zone 0 sheds both members, which leaves two QUEUED records with the empty record's address. -/
theorem step_listsAbsent : ∃ t, step State.listsAbsent = .next t
    ∧ (t.hel 0).state = .queued ∧ (t.hel 1).state = .queued
    ∧ (t.hel 0).segment = (t.hel 1).segment ∧ (t.hel 0).drop = (t.hel 1).drop :=
  ⟨_, rfl, by decide +kernel⟩

/-- Refutes O55: `State.listsAbsent` has unique addresses, and the records 0 and 1 that its step makes present share
segment 0 and drop 0. -/
theorem not_tablesStayCanonical : ¬ Obligations.TablesStayCanonical := by
  unfold Obligations.TablesStayCanonical
  rintro ⟨-, hunique⟩
  obtain ⟨t, hstep, h0, h1, hsegment, hdrop⟩ := step_listsAbsent
  have hkept := hunique _ t (by decide +kernel) State.listsAbsent_addressesUnique hstep
  exact absurd (hkept 0 1 (by simp [h0]) (by simp [h1]) hsegment hdrop) (by decide)

end Sys2Proof.Machine
end

section
/-! PROOFS. What a step can do, said once: it is a chain of writes of one record each. Every invariant of single records
(canonical tables, ranges, protection settings) and the rules of FIELD_CLEAR follow from what one write keeps. -/

-- One proof after another: begun all at once, the proofs of the whole text outgrow the check's memory.
set_option Elab.async false

namespace Sys2Proof.Machine

/-! ### The ranges of the records -/

/-- A zone's settings lie in their ranges (R52, R56). -/
def Zone.inRange (zn : Zone) : Prop :=
  (1 ≤ zn.rjMax ∧ zn.rjMax ≤ 32) ∧ zn.dispatchLimit ≤ 65535 ∧ zn.protectLimit ≤ 65535

/-- A frame's remaining time, reception count and seq lie in their ranges (R97, R103, R108). -/
def Frame.inRange (f : Frame) : Prop := f.remaining ≤ 25500 ∧ f.receptions ≤ 3 ∧ f.seq ≤ 15

/-- A segment's settings and counts lie in their ranges (R103, R117, R132, R134, R136). -/
def Seg.inRange (g : Seg) : Prop :=
  (1 ≤ g.timeout ∧ g.timeout ≤ 255) ∧ (1 ≤ g.quiet ∧ g.quiet ≤ 255)
    ∧ g.head ≤ 15 ∧ g.count ≤ 16 ∧ g.invertedRun ≤ 3 ∧ g.errorRun ≤ 7
    ∧ g.answered ≤ 65535 ∧ g.missed ≤ 65535 ∧ g.crcErrors ≤ 65535
    ∧ (∀ d, g.quietLeft = some d → d ≤ 2550)
    ∧ (∀ f, g.frame = some f → f.inRange)

/-- `Seg.inRange`, item by item. -/
structure Seg.Ranges (g : Seg) : Prop where
  timeout : 1 ≤ g.timeout ∧ g.timeout ≤ 255
  quiet : 1 ≤ g.quiet ∧ g.quiet ≤ 255
  head : g.head ≤ 15
  count : g.count ≤ 16
  invertedRun : g.invertedRun ≤ 3
  errorRun : g.errorRun ≤ 7
  answered : g.answered ≤ 65535
  missed : g.missed ≤ 65535
  crcErrors : g.crcErrors ≤ 65535
  quietLeft : ∀ d, g.quietLeft = some d → d ≤ 2550
  frame : ∀ f, g.frame = some f → f.inRange

theorem Seg.inRange_iff {g : Seg} : g.inRange ↔ g.Ranges :=
  ⟨fun ⟨h1, h2, h3, h4, h5, h6, h7, h8, h9, h10, h11⟩ => ⟨h1, h2, h3, h4, h5, h6, h7, h8, h9, h10, h11⟩,
    fun ⟨h1, h2, h3, h4, h5, h6, h7, h8, h9, h10, h11⟩ => ⟨h1, h2, h3, h4, h5, h6, h7, h8, h9, h10, h11⟩⟩

theorem Seg.inRange_of {g g' : Seg} (h : g.Ranges → g'.Ranges) (hg : g.inRange) : g'.inRange :=
  Seg.inRange_iff.2 (h (Seg.inRange_iff.1 hg))

/-- `Hel.inRange`, item by item. -/
structure Hel.Ranges (h : Hel) : Prop where
  segment : h.segment ≤ 7
  drop : h.drop ≤ 250
  pos : h.pos.within 1000000
  nCmd : h.nCmd.within 32767
  nRep : ∀ n, h.nRep = some n → n.within 32767
  area : h.area ≤ 65535
  refl : h.refl ≤ 1024
  fault : h.fault ≤ 15
  seq : h.seq ≤ 15
  miss : h.miss ≤ 15
  dev : h.dev ≤ 15
  pClear : h.pClear ≤ 983025
  pNew : h.pNew ≤ 983025

theorem Hel.inRange_iff {h : Hel} : h.inRange ↔ h.Ranges :=
  ⟨fun ⟨h1, h2, h3, h4, h5, h6, h7, h8, h9, h10, h11, h12, h13⟩ =>
      ⟨h1, h2, h3, h4, h5, h6, h7, h8, h9, h10, h11, h12, h13⟩,
    fun ⟨h1, h2, h3, h4, h5, h6, h7, h8, h9, h10, h11, h12, h13⟩ =>
      ⟨h1, h2, h3, h4, h5, h6, h7, h8, h9, h10, h11, h12, h13⟩⟩

theorem Hel.inRange_of {h h' : Hel} (hr : h.Ranges → h'.Ranges) (hh : h.inRange) : h'.inRange :=
  Hel.inRange_iff.2 (hr (Hel.inRange_iff.1 hh))

/-- A channel's depth and counts lie in their ranges (R139, R143). -/
def Channel.inRange (c : Channel) : Prop :=
  (1 ≤ c.depth ∧ c.depth ≤ 8) ∧ c.overruns ≤ 255 ∧ c.records.length ≤ c.depth

/-- The irradiance of the sun source and of its snapshot lies in its range (R5). -/
def State.sunOk (s : State) : Prop := s.sun.dni ≤ 1500 ∧ ∀ u, s.snapshot = some u → u.dni ≤ 1500

/-- The part-wide link settings lie in their ranges (R20, R45, R46). -/
def LinkSettings.inRange (l : LinkSettings) : Prop :=
  (1 ≤ l.missLimit ∧ l.missLimit ≤ 15) ∧ (1 ≤ l.devLimit ∧ l.devLimit ≤ 15) ∧ (30000 ≤ l.ptol ∧ l.ptol ≤ 32767)

/-- The Epoch Timer's periods and countdown lie in their ranges (R78, R79). -/
def Epoch.inRange (e : Epoch) : Prop :=
  (e.running = true → 250 ≤ e.period) ∧ e.period ≤ 65535
    ∧ (∀ p, e.pendingPeriod = some p → 250 ≤ p ∧ p ≤ 65535) ∧ e.countdown ≤ 65535

/-- The settings and countdowns of the PAU lie in their ranges (R155, R164, R167). -/
def Pau.inRange (x : Pau) : Prop :=
  (1 ≤ x.deadline ∧ x.deadline ≤ 600) ∧ x.supPeriod ≤ 255
    ∧ (∀ d, x.deadlineLeft = some d → d ≤ 60000) ∧ ∀ d, x.supLeft = some d → d ≤ 2550

/-- `State.unitsOk`, unit by unit. -/
structure State.UnitRanges (s : State) : Prop where
  link : s.link.inRange
  sun : s.sun.dni ≤ 1500 ∧ s.sun.atc ≤ 4095
  snapshot : ∀ u, s.snapshot = some u → u.dni ≤ 1500 ∧ u.atc ≤ 4095
  epoch : s.epoch.inRange
  rsg : s.rsg.stepMs ≤ 255 ∧ s.rsg.dmax ≤ 255 ∧ s.rsg.reg ≠ 0
  scu : s.scu.shf ≤ 256 ∧ s.scu.qual ≤ 255 ∧ s.scu.shadeMax ≤ 255
  pau : s.pau.inRange
  sweep : s.sweep.count ≤ 65535
  lastServed : s.lastServed ≤ 7
  timers : ∀ k d, s.timer k = some d → d ≤ 2040

theorem State.unitsOk_iff (s : State) : s.unitsOk ↔ s.UnitRanges := by
  constructor
  · rintro ⟨hmiss, hdev, hptol, hdni, hatc, hsnap, hrun, hperiod, hpending, hcount, hstep, hdmax, hreg, hshf, hqual,
      hmax, hdeadline, hsup, hdl, hsl, hsweep, hserved, htimer⟩
    exact ⟨⟨hmiss, hdev, hptol⟩, ⟨hdni, hatc⟩, hsnap, ⟨hrun, hperiod, hpending, hcount⟩, ⟨hstep, hdmax, hreg⟩,
      ⟨hshf, hqual, hmax⟩, ⟨hdeadline, hsup, hdl, hsl⟩, hsweep, hserved, htimer⟩
  · rintro ⟨⟨hmiss, hdev, hptol⟩, ⟨hdni, hatc⟩, hsnap, ⟨hrun, hperiod, hpending, hcount⟩, ⟨hstep, hdmax, hreg⟩,
      ⟨hshf, hqual, hmax⟩, ⟨hdeadline, hsup, hdl, hsl⟩, hsweep, hserved, htimer⟩
    exact ⟨hmiss, hdev, hptol, hdni, hatc, hsnap, hrun, hperiod, hpending, hcount, hstep, hdmax, hreg, hshf, hqual,
      hmax, hdeadline, hsup, hdl, hsl, hsweep, hserved, htimer⟩

theorem State.unitsOk_of {s t : State} (h : s.UnitRanges → t.UnitRanges) : s.unitsOk → t.unitsOk := fun hs =>
  (State.unitsOk_iff t).2 (h ((State.unitsOk_iff s).1 hs))

theorem State.blocksOk_iff (s : State) : s.blocksOk ↔
    (∀ z, (s.zone z).inRange) ∧ (∀ k, (s.seg k).inRange) ∧ ∀ k, (s.channel k).inRange := Iff.rfl

theorem State.recordsOk_iff (s : State) : s.recordsOk ↔ (∀ i, (s.hel i).inRange) ∧ s.sunOk := Iff.rfl

/-- The settings of a zone that the protection port alone writes (R53, R55, R56). -/
def Zone.protection (zn : Zone) : Nat × Bool × Nat := (zn.protectLimit, zn.hold, zn.rjMax)

/-- What the books of the field and the budget read of a record. -/
def Hel.booked (h : Hel) :
    HState × Option Nat × Bool × Option Stranded × Bool × Option Nat × Nat × Nat :=
  (h.state, h.assignment, h.onAlternate, h.stranded, h.departing, h.departureZone, h.segment, h.pClear)

/-- What the books of the field and the budget read of a zone. -/
def Zone.booked (zn : Zone) : Nat × Nat × Nat × List Nat × List Nat × Nat :=
  (zn.dispatchLimit, zn.protectLimit, zn.stranded, zn.joinList, zn.queue, zn.pendingDepartures)

/-- What the books of the field and the budget read of the units. -/
def State.bookedUnits (s : State) : Bool × Bool × Nat × Nat :=
  (s.pau.asserted, s.pau.stowCommand, s.pau.lateCount, s.scu.shf)

/-- The figures of a zone that FIELD_CLEAR reads (R170). -/
def Zone.figures (zn : Zone) : Nat × Nat × Nat := (zn.joinList.length, zn.pendingDepartures, zn.stranded)

/-- The tables of the state, each in its canonical form. -/
theorem State.tablesOk_iff (s : State) : s.tablesOk = true ↔
    Tab.wf Hel.empty s.hels = true ∧ Tab.wf Point.reset s.points = true ∧ Tab.wf Zone.reset s.zones = true
      ∧ Tab.wf Seg.reset s.segs = true ∧ (∀ e ∈ s.segs, Tab.wf Slot.reset e.2.slots = true)
      ∧ Tab.wf none s.rsg.timers = true ∧ Tab.wf Channel.reset s.scu.channels = true
      ∧ Tab.wf SegShade.reset s.scu.shades = true := by
  simp only [State.tablesOk, Bool.and_eq_true, List.all_eq_true, and_assoc]

/-! ### One write -/

/-- A write outside the numbered records: the units, the ports and the events. `p` says that the command may write
the protection settings, `r` that the write leaves what the books and the budget read. -/
structure UnitWrite (p r : Bool) (s t : State) : Prop where
  hels : t.hels = s.hels := by rfl
  points : t.points = s.points := by rfl
  zones : t.zones = s.zones := by rfl
  segs : t.segs = s.segs := by rfl
  timers : t.rsg.timers = s.rsg.timers := by rfl
  channels : t.scu.channels = s.scu.channels := by rfl
  shades : t.scu.shades = s.scu.shades := by rfl
  fieldClear : t.pau.fieldClear = s.pau.fieldClear := by rfl
  units : s.unitsOk → t.unitsOk := by exact id
  sun : s.sunOk → t.sunOk := by exact id
  protection : p = true ∨ (t.pau.deadline = s.pau.deadline ∧ t.pau.supPeriod = s.pau.supPeriod) := by
    exact .inr ⟨rfl, rfl⟩
  plain : r = false ∨ t.bookedUnits = s.bookedUnits := by exact .inr rfl

/-- One write of a step. `p` says that the command may write the protection settings, `q` that the write is quiet: it
leaves the figures that FIELD_CLEAR reads; `r` that it is plain: it leaves what the books and the budget read. -/
inductive Write (p q r : Bool) : State → State → Prop where
  | hel (s : State) (i : Nat) (f : Hel → Hel) (range : s.recordsOk → (f (s.hel i)).inRange)
      (plain : r = false ∨ (f (s.hel i)).booked = (s.hel i).booked) : Write p q r s (s.modHel i f)
  | point (s : State) (i : Nat) (f : Point → Point) (plain : r = false) : Write p q r s (s.modPoint i f)
  | zone (s : State) (z : Nat) (f : Zone → Zone) (range : (s.zone z).inRange → (f (s.zone z)).inRange)
      (protection : p = true ∨ (f (s.zone z)).protection = (s.zone z).protection)
      (quiet : q = false ∨ (f (s.zone z)).figures = (s.zone z).figures)
      (plain : r = false ∨ (f (s.zone z)).booked = (s.zone z).booked) : Write p q r s (s.modZone z f)
  | seg (s : State) (k : Nat) (f : Seg → Seg) (range : (s.seg k).inRange → (f (s.seg k)).inRange)
      (slots : Tab.wf Slot.reset (s.seg k).slots = true → Tab.wf Slot.reset (f (s.seg k)).slots = true) :
      Write p q r s (s.modSeg k f)
  | channel (s : State) (k : Nat) (f : Channel → Channel)
      (range : (s.channel k).inRange → (f (s.channel k)).inRange) : Write p q r s (s.modChannel k f)
  | shade (s : State) (k : Nat) (f : SegShade → SegShade)
      (plain : r = false ∨ (f (s.shade k)).shaded = (s.shade k).shaded) : Write p q r s (s.modShade k f)
  | timer (s : State) (k : Nat) (x : Option Nat) (range : s.unitsOk → ∀ d, x = some d → d ≤ 2040) :
      Write p q r s (s.setTimer k x)
  | units (s t : State) (h : UnitWrite p r s t) : Write p q r s t

/-- A chain of writes. -/
abbrev Writes (p q r : Bool) : State → State → Prop := Relation.ReflTransGen (Write p q r)

/-! ### What one write keeps -/

section
variable {p q r : Bool} {s t : State}

/-- A listed slot of a canonical table is what the table reads there. -/
theorem Tab.get_of_mem {α : Type} [DecidableEq α] {d : α} {t : Tab α} (h : Tab.wf d t = true) {e : Nat × α}
    (he : e ∈ t) : Tab.get d t e.1 = e.2 := by
  have hp := ((Tab.wf_iff d t).1 h).2
  clear h
  induction t with
  | nil => cases he
  | cons x t ih =>
    obtain ⟨hx, ht⟩ := List.pairwise_cons.1 hp
    rcases List.mem_cons.1 he with rfl | he
    · simp [Tab.get]
    · rw [Tab.get, if_neg (Nat.ne_of_lt (hx e he))]
      exact ih he ht

/-- The entries of a written table are the one written and those that stood. -/
theorem Tab.mem_put {α : Type} [DecidableEq α] {d v : α} {t : Tab α} {i : Nat} {e : Nat × α}
    (he : e ∈ Tab.put d t i v) : e = (i, v) ∨ e ∈ t := by
  unfold Tab.put at he
  split at he
  · exact .inr (Tab.mem_erase.1 he).1
  · exact (Tab.mem_insert.1 he).imp_right fun h => (Tab.mem_erase.1 h).1

theorem Tab.forall_get_of_forall_mem {α : Type} {d : α} {t : Tab α} {P : α → Prop} (hd : P d)
    (h : ∀ e ∈ t, P e.2) (i : Nat) : P (Tab.get d t i) := by
  induction t with
  | nil => exact hd
  | cons x t ih =>
    rw [Tab.get]
    split
    · exact h x (by simp)
    · exact ih fun e he => h e (by simp [he])

theorem Write.tablesOk (h : Write p q r s t) (hs : s.tablesOk = true) : t.tablesOk = true := by
  rw [State.tablesOk_iff] at hs ⊢
  obtain ⟨hh, hp, hz, hg, hl, ht, hc, hd⟩ := hs
  cases h with
  | hel i f => exact ⟨Tab.wf_put hh _ _, hp, hz, hg, hl, ht, hc, hd⟩
  | point i f => exact ⟨hh, Tab.wf_put hp _ _, hz, hg, hl, ht, hc, hd⟩
  | zone z f => exact ⟨hh, hp, Tab.wf_put hz _ _, hg, hl, ht, hc, hd⟩
  | seg k f range slots =>
    refine ⟨hh, hp, hz, Tab.wf_put hg _ _, fun e he => ?_, ht, hc, hd⟩
    rcases Tab.mem_put he with rfl | he
    · exact slots (Tab.forall_get_of_forall_mem (P := fun g : Seg => Tab.wf Slot.reset g.slots = true) rfl hl k)
    · exact hl e he
  | channel k f => exact ⟨hh, hp, hz, hg, hl, ht, Tab.wf_put hc _ _, hd⟩
  | shade k f => exact ⟨hh, hp, hz, hg, hl, ht, hc, Tab.wf_put hd _ _⟩
  | timer k x => exact ⟨hh, hp, hz, hg, hl, Tab.wf_put ht _ _, hc, hd⟩
  | units _ h =>
    rw [h.hels, h.points, h.zones, h.segs, h.timers, h.channels, h.shades]
    exact ⟨hh, hp, hz, hg, hl, ht, hc, hd⟩

theorem Write.recordsOk (h : Write p q r s t) (hs : s.recordsOk) : t.recordsOk := by
  cases h with
  | hel i f range =>
    refine ⟨fun j => ?_, hs.2⟩
    rw [State.hel_modHel]
    split
    · exact range hs
    · exact hs.1 j
  | units _ h =>
    refine ⟨fun i => ?_, h.sun hs.2⟩
    rw [State.hel, h.hels]
    exact hs.1 i
  | _ => exact hs

theorem Write.unitsOk (h : Write p q r s t) (hs : s.unitsOk) : t.unitsOk := by
  cases h with
  | timer k x range =>
    have hx := range hs
    refine State.unitsOk_of (s := s) (fun r => { r with timers := fun j d hd => ?_ }) hs
    rw [State.timer_setTimer] at hd
    split at hd
    · exact hx d hd
    · exact r.timers j d hd
  | units _ h => exact h.units hs
  | _ => exact hs

theorem Write.blocksOk (h : Write p q r s t) (hs : s.blocksOk) : t.blocksOk := by
  rw [State.blocksOk_iff] at hs ⊢
  obtain ⟨hz, hg, hc⟩ := hs
  cases h with
  | zone z f range =>
    refine ⟨fun y => ?_, hg, hc⟩
    rw [State.zone_modZone]
    split
    · exact range (hz z)
    · exact hz y
  | seg k f range =>
    refine ⟨hz, fun j => ?_, hc⟩
    rw [State.seg_modSeg]
    split
    · exact range (hg k)
    · exact hg j
  | channel k f range =>
    refine ⟨hz, hg, fun j => ?_⟩
    rw [State.channel_modChannel]
    split
    · exact range (hc k)
    · exact hc j
  | units _ h =>
    refine ⟨fun z => ?_, fun k => ?_, fun k => ?_⟩
    · rw [State.zone, h.zones]; exact hz z
    · rw [State.seg, h.segs]; exact hg k
    · rw [State.channel, h.channels]; exact hc k
  | _ => exact ⟨hz, hg, hc⟩

/-- A command that is not the protection port's writes no protection setting. -/
theorem Write.protectionSettings (h : Write false q r s t) (z : Nat) : t.protectionSettings z = s.protectionSettings z := by
  cases h with
  | zone y f range protection =>
    have hprot : (f (s.zone y)).protection = (s.zone y).protection := protection.resolve_left (by decide)
    unfold State.protectionSettings
    rw [State.zone_modZone]
    split
    next hy =>
      simp only [Zone.protection, Prod.mk.injEq] at hprot
      obtain ⟨hlimit, hhold, hramp⟩ := hprot
      rw [hlimit, hhold, hramp, hy]; rfl
    next => rfl
  | units _ h =>
    obtain ⟨hdeadline, hperiod⟩ := h.protection.resolve_left (by decide)
    unfold State.protectionSettings State.zone
    rw [hdeadline, hperiod, h.zones]
  | _ => rfl

/-- No write but the re-derivation itself changes FIELD_CLEAR. -/
theorem Write.fieldClear (h : Write p q r s t) : t.pau.fieldClear = s.pau.fieldClear := by
  cases h with
  | units _ h => exact h.fieldClear
  | _ => rfl

/-- The condition of FIELD_CLEAR is a matter of the zones' figures. -/
theorem State.fieldIsClear_of_figures (h : ∀ z, (t.zone z).figures = (s.zone z).figures) :
    t.fieldIsClear = s.fieldIsClear := by
  have hl z : (t.zone z).joinList.length = (s.zone z).joinList.length := congrArg (·.1) (h z)
  have hd z : (t.zone z).pendingDepartures = (s.zone z).pendingDepartures := congrArg (·.2.1) (h z)
  have hx z : (t.zone z).stranded = (s.zone z).stranded := congrArg (·.2.2) (h z)
  simp only [State.fieldIsClear, State.onTargetCount, State.departingCount, State.strandedTotal, hl, hd, hx]

/-- A quiet write leaves the condition of FIELD_CLEAR. -/
theorem Write.fieldIsClear (h : Write p true r s t) : t.fieldIsClear = s.fieldIsClear := by
  refine State.fieldIsClear_of_figures fun y => ?_
  cases h with
  | zone z f range protection quiet =>
    rw [State.zone_modZone]
    split
    next hy => rw [quiet.resolve_left (by decide), hy]
    next => rfl
  | units _ h => rw [State.zone, h.zones, ← State.zone]
  | _ => rfl

/-- A plain write is a write. -/
theorem Write.unplain (h : Write p q r s t) : Write p q false s t := by
  cases h with
  | hel i f range => exact .hel s i f range (.inl rfl)
  | point i f => exact .point s i f rfl
  | zone z f range protection quiet => exact .zone s z f range protection quiet (.inl rfl)
  | seg k f range slots => exact .seg s k f range slots
  | channel k f range => exact .channel s k f range
  | shade k f => exact .shade s k f (.inl rfl)
  | timer k x range => exact .timer s k x range
  | units _ h => exact .units s t { h with plain := .inl rfl }

/-- A quiet write is a write. -/
theorem Write.loud (h : Write p q r s t) : Write p false false s t := by
  cases h.unplain with
  | hel i f range plain => exact .hel s i f range plain
  | point i f plain => exact .point s i f plain
  | zone z f range protection quiet plain => exact .zone s z f range protection (.inl rfl) plain
  | seg k f range slots => exact .seg s k f range slots
  | channel k f range => exact .channel s k f range
  | shade k f plain => exact .shade s k f plain
  | timer k x range => exact .timer s k x range
  | units _ h => exact .units s t h

/-- A write that is not the protection port's is a write of any command. -/
theorem Write.anyPort (h : Write false q r s t) : Write p q r s t := by
  cases h with
  | hel i f range plain => exact .hel s i f range plain
  | point i f plain => exact .point s i f plain
  | zone z f range protection quiet plain =>
    exact .zone s z f range (.inr (protection.resolve_left (by decide))) quiet plain
  | seg k f range slots => exact .seg s k f range slots
  | channel k f range => exact .channel s k f range
  | shade k f plain => exact .shade s k f plain
  | timer k x range => exact .timer s k x range
  | units _ h => exact .units s t { h with protection := .inr (h.protection.resolve_left (by decide)) }

end

/-! ### What a chain of writes keeps -/

/-- What each write keeps, a chain of them keeps. -/
theorem Writes.keeps {p q r : Bool} {s t : State} {P : State → Prop} (hP : ∀ u v, Write p q r u v → P u → P v)
    (h : Writes p q r s t) (hs : P s) : P t := by
  induction h with
  | refl => exact hs
  | tail _ hw ih => exact hP _ _ hw ih

namespace Writes
variable {p q r : Bool} {s t : State}

theorem tablesOk (h : Writes p q r s t) : s.tablesOk = true → t.tablesOk = true :=
  h.keeps fun _ _ => Write.tablesOk

theorem recordsOk (h : Writes p q r s t) : s.recordsOk → t.recordsOk := h.keeps fun _ _ => Write.recordsOk

theorem unitsOk (h : Writes p q r s t) : s.unitsOk → t.unitsOk := h.keeps fun _ _ => Write.unitsOk

theorem blocksOk (h : Writes p q r s t) : s.blocksOk → t.blocksOk := h.keeps fun _ _ => Write.blocksOk

theorem protectionSettings (h : Writes false q r s t) (z : Nat) : t.protectionSettings z = s.protectionSettings z :=
  h.keeps (P := fun u => u.protectionSettings z = s.protectionSettings z)
    (fun _ _ hw hu => (hw.protectionSettings z).trans hu) rfl

theorem fieldClear (h : Writes p q r s t) : t.pau.fieldClear = s.pau.fieldClear :=
  h.keeps (P := fun u => u.pau.fieldClear = s.pau.fieldClear) (fun _ _ hw hu => hw.fieldClear.trans hu) rfl

theorem fieldIsClear (h : Writes p true r s t) : t.fieldIsClear = s.fieldIsClear :=
  h.keeps (P := fun u => u.fieldIsClear = s.fieldIsClear) (fun _ _ hw hu => hw.fieldIsClear.trans hu) rfl

theorem unplain (h : Writes p q r s t) : Writes p q false s t := Relation.ReflTransGen.mono (fun _ _ => Write.unplain) _ _ h

theorem loud (h : Writes p q r s t) : Writes p false false s t := Relation.ReflTransGen.mono (fun _ _ => Write.loud) _ _ h

theorem anyPort (h : Writes false q r s t) : Writes p q r s t := Relation.ReflTransGen.mono (fun _ _ => Write.anyPort) _ _ h

end Writes

end Sys2Proof.Machine
end

section
/-! PROOFS. The shared operations as chains of writes: departures, moves between collections, settlements, outcomes of the
drive dialogue, segments, sensors, protective actions, sweeps. -/

-- One proof after another: begun all at once, the proofs of the whole text outgrow the check's memory.
set_option Elab.async false

namespace Sys2Proof.Machine

namespace Writes

section
variable {p q r : Bool} {s u : State}

/-! ### One more write -/

/-- A write of a record's other fields: those that the books and the budget read stand. -/
theorem hel (h : Writes p q r s u) (i : Nat) (f : Hel → Hel)
    (range : u.recordsOk → (f (u.hel i)).inRange := by exact fun hr => hr.1 _)
    (booked : (f (u.hel i)).booked = (u.hel i).booked := by rfl) : Writes p q r s (u.modHel i f) :=
  h.tail (.hel u i f range (.inr booked))

/-- A write of a record. -/
theorem helMoved (h : Writes p q false s u) (i : Nat) (f : Hel → Hel)
    (range : u.recordsOk → (f (u.hel i)).inRange := by exact fun hr => hr.1 _) : Writes p q false s (u.modHel i f) :=
  h.tail (.hel u i f range (.inl rfl))

theorem point (h : Writes p q false s u) (i : Nat) (f : Point → Point) : Writes p q false s (u.modPoint i f) :=
  h.tail (.point u i f rfl)

/-- A write of a zone's collections, sums and state: its settings stand. -/
theorem zone (h : Writes p false false s u) (z : Nat) (f : Zone → Zone)
    (range : (u.zone z).inRange → (f (u.zone z)).inRange := by exact id)
    (protection : (f (u.zone z)).protection = (u.zone z).protection := by rfl) :
    Writes p false false s (u.modZone z f) :=
  h.tail (.zone u z f range (.inr protection) (.inl rfl) (.inl rfl))

/-- A write of a zone's rejoin queue or dispatch settings. -/
theorem zoneQuiet (h : Writes p q false s u) (z : Nat) (f : Zone → Zone)
    (range : (u.zone z).inRange → (f (u.zone z)).inRange := by exact id)
    (protection : (f (u.zone z)).protection = (u.zone z).protection := by rfl)
    (figures : (f (u.zone z)).figures = (u.zone z).figures := by rfl) : Writes p q false s (u.modZone z f) :=
  h.tail (.zone u z f range (.inr protection) (.inr figures) (.inl rfl))

/-- A write of a zone's state. -/
theorem zoneState (h : Writes p q r s u) (z : Nat) (x : ZState) :
    Writes p q r s (u.modZone z fun zn => { zn with state := x }) :=
  h.tail (.zone u z _ id (.inr rfl) (.inr rfl) (.inr rfl))

theorem seg (h : Writes p q r s u) (k : Nat) (f : Seg → Seg)
    (range : (u.seg k).inRange → (f (u.seg k)).inRange := by exact id)
    (slots : Tab.wf Slot.reset (u.seg k).slots = true → Tab.wf Slot.reset (f (u.seg k)).slots = true := by exact id) :
    Writes p q r s (u.modSeg k f) :=
  h.tail (.seg u k f range slots)

theorem channel (h : Writes p q r s u) (k : Nat) (f : Channel → Channel)
    (range : (u.channel k).inRange → (f (u.channel k)).inRange := by exact id) : Writes p q r s (u.modChannel k f) :=
  h.tail (.channel u k f range)

/-- A write of a segment's map: its shade stands. -/
theorem shade (h : Writes p q r s u) (k : Nat) (f : SegShade → SegShade)
    (shaded : (f (u.shade k)).shaded = (u.shade k).shaded := by rfl) : Writes p q r s (u.modShade k f) :=
  h.tail (.shade u k f (.inr shaded))

theorem shadeMoved (h : Writes p q false s u) (k : Nat) (f : SegShade → SegShade) :
    Writes p q false s (u.modShade k f) :=
  h.tail (.shade u k f (.inl rfl))

theorem timer (h : Writes p q r s u) (k : Nat) (x : Option Nat) (range : u.unitsOk → ∀ d, x = some d → d ≤ 2040) :
    Writes p q r s (u.setTimer k x) :=
  h.tail (.timer u k x range)

theorem units {t : State} (h : Writes p q r s u) (w : UnitWrite p r u t) : Writes p q r s t := h.tail (.units u t w)

theorem raiseD (h : Writes p q r s u) (e : DEvent) : Writes p q r s (u.raiseD e) := h.units {}

theorem raiseP (h : Writes p q r s u) (e : PEvent) : Writes p q r s (u.raiseP e) := h.units {}

theorem raiseBoth (h : Writes p q r s u) (d : DEvent) (e : PEvent) : Writes p q r s (u.raiseBoth d e) :=
  (h.raiseD d).raiseP e

/-- An action that is taken once for each element of a list. -/
theorem foldl {α : Type} {f : State → α → State} (hf : ∀ u a, Writes p q r s u → Writes p q r s (f u a)) (l : List α)
    (h : Writes p q r s u) : Writes p q r s (l.foldl f u) := by
  induction l generalizing u with
  | nil => exact h
  | cons a l ih => exact ih (hf u a h)

/-- Several records rewritten. -/
theorem updateHels (h : Writes p q r s u) (f : Hel → Hel) (range : ∀ g : Hel, g.inRange → (f g).inRange)
    (plain : r = false ∨ ∀ g : Hel, (f g).booked = g.booked) (is : List Nat) :
    Writes p q r s { u with hels := Tab.update Hel.empty (fun _ => f) is u.hels } := by
  induction is generalizing u with
  | nil => exact h
  | cons i is ih => exact ih (h.tail (.hel u i f (fun hr => range _ (hr.1 i)) (plain.imp_right (· _))))

/-- Several segments rewritten. -/
theorem updateSegs (h : Writes p q r s u) (f : Seg → Seg) (range : ∀ g : Seg, g.inRange → (f g).inRange)
    (slots : ∀ g : Seg, Tab.wf Slot.reset g.slots = true → Tab.wf Slot.reset (f g).slots = true) (ks : List Nat) :
    Writes p q r s { u with segs := Tab.update Seg.reset (fun _ => f) ks u.segs } := by
  induction ks generalizing u with
  | nil => exact h
  | cons k ks ih => exact ih (h.seg k f (range _) (slots _))

/-- Several release timers rewritten, none to more than it had. -/
theorem updateTimers (h : Writes p q r s u) (d : Nat) (ks : List Nat) :
    Writes p q r s { u with rsg := { u.rsg with
      timers := Tab.update none (fun _ (t : Option Nat) => t.map (· - d)) ks u.rsg.timers } } := by
  induction ks generalizing u with
  | nil => exact h
  | cons k ks ih =>
    refine ih (h.timer k ((u.timer k).map (· - d)) fun hu x hx => ?_)
    obtain ⟨y, hy, rfl⟩ := Option.map_eq_some_iff.1 hx
    exact (Nat.sub_le y d).trans (((State.unitsOk_iff u).1 hu).timers k y hy)

/-! ### Departures, moves between collections, stranding -/

theorem urgentAdd (h : Writes p q r s u) (k i : Nat) : Writes p q r s (u.urgentAdd k i) := h.seg k _

theorem urgentRemove (h : Writes p q r s u) (k i : Nat) : Writes p q r s (u.urgentRemove k i) := h.seg k _

theorem unsweep (h : Writes p q r s u) (i : Nat) : Writes p q r s (u.unsweep i) := h.units {}

theorem clearAlternate (h : Writes p q false s u) (i : Nat) : Writes p q false s (u.clearAlternate i) := by
  unfold State.clearAlternate
  dsimp only
  split
  · refine .helMoved ?_ i _
    split <;> split
    · exact (h.point _ _).point _ _
    · exact h.point _ _
    · exact h.point _ _
    · exact h
  · exact h

theorem departFrom (h : Writes p false false s u) (z i : Nat) (dst : HState) : Writes p false false s (u.departFrom z i dst) :=
  (((h.clearAlternate i).zone z _).helMoved i _).urgentAdd _ i

theorem depart (h : Writes p false false s u) (i : Nat) (dst : HState) : Writes p false false s (u.depart i dst) :=
  h.departFrom _ i dst

theorem departStranding (h : Writes p false false s u) (i : Nat) (dst : HState) :
    Writes p false false s (u.departStranding i dst) := by
  unfold State.departStranding
  dsimp only
  exact ((h.depart i dst).zone _ _).helMoved i _

theorem clearDeparture (h : Writes p false false s u) (i : Nat) : Writes p false false s (u.clearDeparture i) := by
  unfold State.clearDeparture
  dsimp only
  split
  · refine .helMoved ?_ i _
    split
    · exact h.zone _ _
    · exact h
  · exact h

theorem leaveOver (h : Writes p q r s u) (z : Nat) : Writes p q r s (u.leaveOver z) := by
  unfold State.leaveOver
  split
  · exact h.zoneState z _
  · exact h

theorem releaseFlux (h : Writes p false false s u) (i : Nat) : Writes p false false s (u.releaseFlux i) := by
  unfold State.releaseFlux
  split
  · exact ((h.zone _ _).helMoved i _).leaveOver _
  · exact h

theorem enqueue (h : Writes p q false s u) (i : Nat) : Writes p q false s (u.enqueue i) := by
  unfold State.enqueue
  dsimp only
  exact (h.zoneQuiet _ _).helMoved i _

theorem dequeue (h : Writes p q false s u) (i : Nat) (dst : HState) : Writes p q false s (u.dequeue i dst) := by
  unfold State.dequeue
  dsimp only
  exact (h.zoneQuiet _ _).helMoved i _

theorem queueOrStow (h : Writes p q false s u) (i : Nat) : Writes p q false s (u.queueOrStow i) := by
  rw [State.queueOrStow_eq_ite]
  split
  · exact h.enqueue i
  · exact h.helMoved i _

/-! ### Settlement -/

theorem reroute (h : Writes p false false s u) (z i r : Nat) : Writes p false false s (u.reroute z i r) := by
  unfold State.reroute
  refine .urgentAdd (.helMoved (.point ?_ r _) i _) _ i
  have hlists := (h.zone z fun zn => { zn with joinList := zn.joinList.erase i }).zone (u.point r).zone
    fun zn => { zn with joinList := zn.joinList ++ [i] }
  split
  · exact hlists.point _ _
  · exact hlists

theorem grant (h : Writes p false false s u) (z i : Nat) : Writes p false false s (u.grant z i) := by
  refine .clearDeparture (.helMoved (h.zone z _) i _ fun hr => ?_) i
  exact Hel.inRange_of (h := u.hel i) (fun r => { r with dev := Nat.zero_le _ }) (hr.1 i)

/-- The actions of a settlement, each a chain of writes. -/
theorem settleKeeps : SettleKeeps (Writes p false false s) where
  shed u z h := by
    cases hl : (u.zone z).joinList.getLast? with
    | none => rw [State.shedOne, hl]; exact h
    | some i =>
      rw [State.shedOne_of_newest hl]
      split
      · exact h.reroute z i _
      · exact (h.departFrom z i _).enqueue i
  grant u z i _ h := h.grant z i
  zoneState u z x h := h.zoneState z x
  raise u d e h := h.raiseBoth d e

theorem settle (h : Writes p false false s u) (z : Nat) : Writes p false false s (u.settle z) := settleKeeps.settle z h

theorem settleList (h : Writes p false false s u) (zs : List Nat) : Writes p false false s (u.settleList zs) :=
  settleKeeps.settleList zs h

theorem settleAll (h : Writes p false false s u) : Writes p false false s u.settleAll := settleKeeps.settleAll h

theorem rederive (h : Writes p false false s u) (k : Nat) : Writes p false false s (u.rederive k) := by
  unfold State.rederive
  split
  · exact h
  · exact (h.shadeMoved k _).settleList _

theorem rederiveList (h : Writes p false false s u) (ks : List Nat) : Writes p false false s (u.rederiveList ks) :=
  foldl (fun _ k hu => hu.rederive k) ks h

theorem shfSettle (h : Writes p false false s u) : Writes p false false s u.shfSettle := by
  unfold State.shfSettle
  split
  · exact h
  · exact h.settleList _

end

end Writes

end Sys2Proof.Machine
end

section
/-! PROOFS. The meanings of the commands as chains of writes: frames and receptions, segments, time, protective actions,
sensors, sweeps; and where each re-derives FIELD_CLEAR. -/

-- One proof after another: begun all at once, the proofs of the whole text outgrow the check's memory.
set_option Elab.async false

namespace Sys2Proof.Machine

/-! ### Where a step re-derives FIELD_CLEAR -/

/-- What a step does: quiet writes alone, or writes that end with FIELD_CLEAR re-derived, after which come quiet writes
that leave a raised DEFOCUS_COMPLETE pending (R170, R171). -/
inductive Followed (p r : Bool) (s t : State) : Prop where
  | quiet (h : Writes p true r s t)
  | refreshed (plain : r = false) (u : State) (before : Writes p false false s u) (after : Writes p true false u.refreshClear t)
      (kept : u.refreshClear.pPending .defocusComplete = true → t.pPending .defocusComplete = true)

namespace Followed
variable {p r : Bool} {s t u : State}

theorem refresh (h : Writes p false false s u) : Followed p false s u.refreshClear := .refreshed rfl u h .refl id

/-- Quiet writes before. -/
theorem pre (h : Writes p true r s u) (f : Followed p r u t) : Followed p r s t := by
  cases f with
  | quiet hq => exact .quiet (h.trans hq)
  | refreshed plain v before after kept => exact .refreshed plain v (h.loud.trans before) after kept

/-- Quiet writes after, which take no protection event back. -/
theorem post (f : Followed p r s u) (h : Writes p true r u t)
    (kept : u.pPending .defocusComplete = true → t.pPending .defocusComplete = true) : Followed p r s t := by
  cases f with
  | quiet hq => exact .quiet (hq.trans h)
  | refreshed plain v before after keep => exact .refreshed plain v before (after.trans h.unplain) (kept ∘ keep)

end Followed

namespace Writes
variable {p q r : Bool} {s u : State}

/-! ### Ports -/

theorem setTxn (h : Writes p q r s u) (o : Port) (x : Txn) : Writes p q r s (u.setTxn o x) := by
  cases o <;> exact h.units {}

theorem setSelect (h : Writes p q r s u) (o : Port) (low : Bool) : Writes p q r s (u.setSelect o low) := by
  cases o <;> exact h.units {}

/-- The countdown is reloaded with SUP_PERIOD tenths (R168). -/
theorem superviseDelivery (h : Writes p q r s u) (o : Port) : Writes p q r s (u.superviseDelivery o) := by
  cases o with
  | dispatch => exact h
  | protection =>
    unfold State.superviseDelivery
    dsimp only
    split
    · exact h
    · refine h.units { units := State.unitsOk_of fun r => { r with pau := ?_ } }
      obtain ⟨hdeadline, hperiod, hleft, -⟩ := r.pau
      exact ⟨hdeadline, hperiod, hleft, fun d hd => by cases hd; omega⟩

theorem pPending_superviseDelivery_setTxn (u : State) (o : Port) (x : Txn) (e : PEvent) :
    ((u.superviseDelivery o).setTxn o x).pPending e = u.pPending e := by
  rw [State.pPending, State.setTxn_pevents, State.superviseDelivery_pevents, State.pPending]

end Writes

/-- A delivery does what its action does, and no more than quiet writes besides. -/
theorem Followed.deliverWith {p r : Bool} {s : State} {c : Instr} {act : State → State × Code}
    {first : State → Option (List Byte × Option Cursor)} (hact : ∀ u, Followed p r u (act u).1) :
    Followed p r s (deliverWith c act first s) := by
  unfold Machine.deliverWith
  split
  · exact .quiet .refl
  · split
    · exact .post (.pre (Writes.setTxn .refl _ _) (hact _)) (.setTxn (.superviseDelivery .refl _) _ _)
        fun h => (Writes.pPending_superviseDelivery_setTxn _ _ _ _).trans h
    · exact .quiet .refl

/-- A delivery whose action is quiet is quiet. -/
theorem Writes.deliverWith {p r : Bool} {s : State} {c : Instr} {act : State → State × Code}
    {first : State → Option (List Byte × Option Cursor)} (hact : ∀ u, Writes p true r u (act u).1) :
    Followed p r s (Machine.deliverWith c act first s) :=
  .deliverWith fun u => .quiet (hact u)

/-! ### Ranges of segments -/

namespace Seg.inRange
variable {g : Seg} (h : g.inRange)
include h

/-- Another frame in flight whose numbers are in range, or none. -/
theorem withFrame {x : Option Frame} (hx : ∀ f, x = some f → f.inRange) : ({ g with frame := x } : Seg).inRange :=
  Seg.inRange_of (g := g) (fun r => { r with frame := hx }) h

theorem noFrame : ({ g with frame := none } : Seg).inRange := h.withFrame fun _ hf => by cases hf

theorem frame {f : Frame} (hf : g.frame = some f) : f.inRange := (Seg.inRange_iff.1 h).frame f hf

theorem passStart : g.passStart.inRange :=
  Seg.inRange_of (g := g)
    (fun r => { r with answered := Nat.zero_le _, missed := Nat.zero_le _, crcErrors := Nat.zero_le _ }) h

theorem abandon : g.abandon.inRange :=
  Seg.inRange_of (g := g)
    (fun r => { r with quietLeft := fun _ hd => (by cases hd), frame := fun _ hf => (by cases hf) }) h

theorem returnHead (result : MaintResult) (reply : Option Reply) : (g.returnHead result reply).inRange :=
  Seg.inRange_of (g := g)
    (fun r => { r with
      head := Nat.le_of_lt_succ (Nat.mod_lt _ (by decide))
      count := (Nat.sub_le _ _).trans r.count }) h

theorem elapse (d : Nat) : (g.elapse d).inRange := by
  refine Seg.inRange_of (g := g) (fun r => { r with quietLeft := fun x hx => ?_, frame := fun f hf => ?_ }) h
  · obtain ⟨y, hy, rfl⟩ := Option.map_eq_some_iff.1 hx
    exact (Nat.sub_le y d).trans (r.quietLeft y hy)
  · obtain ⟨f', hf', rfl⟩ := Option.map_eq_some_iff.1 hf
    obtain ⟨hleft, hrest⟩ := r.frame f' hf'
    unfold Frame.elapse
    split
    · exact ⟨(Nat.sub_le _ _).trans hleft, hrest⟩
    · exact ⟨hleft, hrest⟩

end Seg.inRange

theorem Hel.empty_inRange : Hel.empty.inRange :=
  Hel.inRange_iff.2
    { segment := by decide, drop := by decide, pos := ⟨by decide, by decide, by decide⟩
      nCmd := ⟨by decide, by decide, by decide⟩, nRep := fun _ hn => by cases hn
      area := by decide, refl := by decide, fault := by decide, seq := by decide, miss := by decide, dev := by decide
      pClear := by decide, pNew := by decide }

theorem cancelRing_inRange (n : Nat) {g : Seg} (h : g.inRange) : (cancelRing n g).inRange := by
  induction n generalizing g with
  | zero => exact h
  | succ n ih => exact ih (h.returnHead _ _)

theorem cancelRing_slots (n : Nat) {g : Seg} (h : Tab.wf Slot.reset g.slots = true) :
    Tab.wf Slot.reset (cancelRing n g).slots = true := by
  induction n generalizing g with
  | zero => exact h
  | succ n ih => exact ih (Tab.wf_put h _ _)

end Sys2Proof.Machine
end

section
/-! PROOFS. The field links, time, protective actions, sensors and sweeps as chains of writes. -/

-- One proof after another: begun all at once, the proofs of the whole text outgrow the check's memory.
set_option Elab.async false

namespace Sys2Proof.Machine

/-- The countdowns of the segments `ks` and of their release timers after `d` milliseconds. -/
def State.elapsedTables (s : State) (ks : List Nat) (d : Nat) : State :=
  { s with
      segs := Tab.update Seg.reset (fun _ => Seg.elapse d) ks s.segs
      rsg := { s.rsg with
        timers := Tab.update none (fun _ (t : Option Nat) => t.map (· - d)) ks s.rsg.timers } }

/-- The passing of time, its two tables apart. -/
theorem State.elapse_eq_elapsedTables (s : State) (d : Nat) : s.elapse d =
    { s.elapsedTables (List.range 8) d with
        ms := (s.elapsedTables (List.range 8) d).ms + BitVec.ofNat 32 d
        epoch := (s.elapsedTables (List.range 8) d).epoch.elapse d
        pau := (s.elapsedTables (List.range 8) d).pau.elapse d } := by
  simp only [State.elapse, State.elapsedTables, Rsg.elapse]

namespace Writes
variable {p q r : Bool} {s u : State}

theorem ite {c : Prop} [Decidable c] {a b : State} (ha : Writes p q r s a) (hb : Writes p q r s b) :
    Writes p q r s (if c then a else b) := by
  split
  · exact ha
  · exact hb

theorem setHel (h : Writes p q false s u) (i : Nat) {x : Hel} (hx : u.recordsOk → x.inRange) : Writes p q false s (u.setHel i x) :=
  h.helMoved i (fun _ => x) hx

/-! ### Time -/

theorem elapse (h : Writes p q r s u) (d : Nat) : Writes p q r s (u.elapse d) := by
  have htables ks : Writes p q r s (u.elapsedTables ks d) :=
    (h.updateSegs (Seg.elapse d) (fun _ hg => hg.elapse d) (fun _ => id) ks).updateTimers d ks
  have heq := State.elapse_eq_elapsedTables u d
  replace htables := htables (List.range 8)
  generalize u.elapsedTables (List.range 8) d = v at heq htables
  rw [heq]
  refine htables.units { units := State.unitsOk_of fun r => { r with epoch := ?_, pau := ?_ } }
  · obtain ⟨hrun, hperiod, hpending, hcount⟩ := r.epoch
    change (v.epoch.elapse d).inRange
    unfold Epoch.elapse
    split
    · exact ⟨hrun, hperiod, hpending, (Nat.sub_le _ _).trans hcount⟩
    · exact ⟨hrun, hperiod, hpending, hcount⟩
  · obtain ⟨hdeadline, hperiod, hdl, hsl⟩ := r.pau
    refine ⟨hdeadline, hperiod, fun x hx => ?_, fun x hx => ?_⟩
    · obtain ⟨y, hy, rfl⟩ := Option.map_eq_some_iff.1 hx
      exact (Nat.sub_le y d).trans (hdl y hy)
    · obtain ⟨y, hy, rfl⟩ := Option.map_eq_some_iff.1 hx
      exact (Nat.sub_le y d).trans (hsl y hy)

theorem elapseTo (h : Writes p q r s u) (c : Option Cand) : Writes p q r s (u.elapseTo c) := by
  cases c with
  | none => exact h
  | some c => exact h.elapse _

theorem tick (h : Writes p q r s u) : Writes p q r s u.tick := by
  obtain ⟨due, -, heq⟩ := u.tick_eq
  have htime := h.elapse 1
  change u.tick = { u.elapse 1 with pau := { (u.elapse 1).pau with stowSampled := u.pins.stowreqN }, pending := due }
    at heq
  rw [heq]
  generalize u.elapse 1 = v at htime
  exact htime.units {}

/-! ### The heliostat table -/

theorem orphan (h : Writes p q r s u) (k i : Nat) : Writes p q r s (u.orphan k i) := by
  refine h.seg k _ fun hg => hg.withFrame fun f hf => ?_
  obtain ⟨f', hf', rfl⟩ := Option.map_eq_some_iff.1 hf
  have hr := hg.frame hf'
  unfold Frame.orphanedBy
  split <;> exact hr

theorem writeAssignment (h : Writes p q false s u) (i : Nat) (x : Option Nat) : Writes p q false s (u.writeAssignment i x) := by
  unfold State.writeAssignment
  refine .helMoved ?_ i _
  have hleft : Writes p q false s (match (u.hel i).assignment with
      | some q => u.modPoint q fun a => { a with inUse := a.inUse - 1 }
      | none => u) := by
    split
    · exact h.point _ _
    · exact h
  cases x with
  | none => exact hleft
  | some x => exact hleft.point _ _

theorem leaveForAssign (h : Writes p false false s u) (i : Nat) : Writes p false false s (u.leaveForAssign i) := by
  unfold State.leaveForAssign
  split
  · exact h.depart i _
  · exact h.dequeue i _
  · exact h.helMoved i _
  all_goals exact h

theorem assignTo (h : Writes p false false s u) (i : Nat) (x : Option Nat) : Writes p false false s (u.assignTo i x) := by
  have hwritten {v : State} (hv : Writes p false false s v) :
      Writes p false false s (((v.writeAssignment i x).modHel i Hel.assignCleared).unsweep i) :=
    ((hv.writeAssignment i x).helMoved i _).unsweep i
  have hleft : Writes p false false s (if !u.stowInEffect then u.leaveForAssign i else u) := by
    split
    · exact h.leaveForAssign i
    · exact h
  unfold State.assignTo
  dsimp only
  exact .ite ((hwritten hleft).enqueue i) (hwritten hleft)

theorem retireRecord (h : Writes p false false s u) (i : Nat) : Writes p false false s (u.retireRecord i) :=
  .setHel (.unsweep (.orphan (.urgentRemove ((h.writeAssignment i none).clearDeparture i) _ i) _ i) i) i
    fun _ => Hel.empty_inRange

/-! ### Segments -/

theorem release (h : Writes p q r s u) (k : Nat) : Writes p q r s (u.release k) := by
  unfold State.release
  split
  · exact h.seg k _ Seg.inRange.passStart
  · exact h.seg k _ Seg.inRange.passStart
  · exact (h.seg k _).raiseD _
  · exact h
  · exact h

theorem passEnd (h : Writes p q r s u) (k : Nat) : Writes p q r s (u.passEnd k) := by
  unfold State.passEnd
  split
  · exact h.seg k _ Seg.inRange.passStart
  · exact h.seg k _

theorem maintReturn (h : Writes p q r s u) (k : Nat) (result : MaintResult) (reply : Option Reply) :
    Writes p q r s (u.maintReturn k result reply) :=
  (h.seg k _ (·.returnHead result reply) fun hs => Tab.wf_put hs _ _).raiseD _

theorem emptyFrame (h : Writes p q r s u) (k : Nat) : Writes p q r s (u.emptyFrame k) := h.seg k _ Seg.inRange.noFrame

theorem sendFrame (h : Writes p q r s u) (k : Nat) {f : Frame} (hf : f.inRange) : Writes p q r s (u.sendFrame k f) :=
  h.seg k _ fun hg => Seg.inRange.withFrame (g := { (u.seg k) with activeUs := none }) hg fun _ he => by
    cases he; exact hf

theorem fixFrame (h : Writes p q r s u) (k i : Nat) {f : Frame} (hf : f.inRange) : Writes p q r s (u.fixFrame k i f) :=
  (h.sendFrame k hf).hel i _ fun hr => Hel.inRange_of (h := u.hel i) (fun r => { r with seq := hf.2.2 }) (hr.1 i)

theorem nextSeq_le (n : Nat) : nextSeq n ≤ 15 := Nat.le_of_lt_succ (Nat.mod_lt _ (by decide))

theorem buildFrame (h : Writes p q r s u) (k i : Nat) (o : Origin) : Writes p q r s (u.buildFrame k i o) := by
  unfold State.buildFrame
  dsimp only
  split
  · exact h
  · split
    · exact h.fixFrame k i ⟨Nat.zero_le _, Nat.zero_le _, nextSeq_le _⟩
    · exact h.seg k _ fun hg => hg.withFrame fun _ hf => by cases hf; exact ⟨Nat.zero_le _, Nat.zero_le _, Nat.zero_le _⟩

theorem answerSolve (h : Writes p q r s u) (k : Nat) {f : Frame} (hf : (u.seg k).inRange → f.inRange) :
    Writes p q r s (u.answerSolve k f) := by
  unfold State.answerSolve
  split
  · exact h.emptyFrame k
  · dsimp only
    split
    · exact h.emptyFrame k
    · split
      · exact h.fixFrame k _ ⟨Nat.zero_le _, Nat.zero_le _, nextSeq_le _⟩
      · exact h.seg k _ fun hg => hg.withFrame fun _ he => by cases he; exact hf hg

theorem serveMaint (h : Writes p q r s u) (k : Nat) : Writes p q r s (u.serveMaint k) := by
  unfold State.serveMaint
  dsimp only
  split
  · exact h.maintReturn k _ _
  · exact (h.fixFrame k _ ⟨Nat.zero_le _, Nat.zero_le _, nextSeq_le _⟩).seg k _

theorem servePass (h : Writes p q r s u) (k : Nat) : Writes p q r s (u.servePass k) := by
  unfold State.servePass
  split
  · exact (h.seg k _).buildFrame k _ _
  · exact h.passEnd k

theorem takeNext (h : Writes p q r s u) (k : Nat) : Writes p q r s (u.takeNext k) := by
  unfold State.takeNext
  dsimp only
  split
  · exact (h.sendFrame k ⟨Nat.zero_le _, Nat.zero_le _, Nat.zero_le _⟩).seg k _
  · split
    · exact (h.seg k _).buildFrame k _ _
    · split
      · exact h.serveMaint k
      · split
        · exact h.servePass k
        · exact h

theorem setRx (h : Writes p q r s u) (k : Nat) (active : Bool) : Writes p q r s (u.setRx k active) := h.units {}

/-! ### Misses -/

theorem goOffline (h : Writes p false false s u) (i : Nat) : Writes p false false s (u.goOffline i) := by
  unfold State.goOffline
  split
  · exact (h.departStranding i _).raiseD _
  · exact (h.dequeue i _).raiseD _
  · exact (h.helMoved i _).raiseD _
  · exact (h.helMoved i _).raiseD _
  all_goals exact h

theorem missOne (h : Writes p false false s u) (i : Nat) : Writes p false false s (u.missOne i) := by
  have hmiss : Writes p false false s (u.modHel i fun h => { h with miss := min 15 ((u.hel i).miss + 1) }) :=
    h.hel i _ fun hr => Hel.inRange_of (h := u.hel i) (fun r => { r with miss := Nat.min_le_left _ _ }) (hr.1 i)
  unfold State.missOne
  dsimp only
  split
  · exact hmiss.goOffline i
  · exact hmiss

theorem accrue (h : Writes p false false s u) (ks : List Nat) : Writes p false false s (u.accrue ks) :=
  foldl (fun _ i hu => hu.missOne i) _ h

/-! ### Good replies -/

theorem acknowledgeReply (h : Writes p false false s u) (i : Nat) (t : Option Target) (r : GoodReply) :
    Writes p false false s (u.acknowledgeReply i t r) := by
  unfold State.acknowledgeReply
  dsimp only
  exact .ite (.ite ((h.clearDeparture i).releaseFlux i) (h.clearDeparture i)) h

theorem goFaulted (h : Writes p false false s u) (i : Nat) : Writes p false false s (u.goFaulted i) := by
  unfold State.goFaulted
  split
  · exact (h.departStranding i _).raiseBoth _ _
  · exact (h.dequeue i _).raiseBoth _ _
  · exact (h.helMoved i _).raiseBoth _ _
  · exact (h.helMoved i _).raiseBoth _ _
  · exact (h.helMoved i _).raiseBoth _ _
  all_goals exact h

theorem goTrackingError (h : Writes p false false s u) (i : Nat) : Writes p false false s (u.goTrackingError i) :=
  ((h.depart i _).hel i _ fun hr =>
    Hel.inRange_of (h := (u.depart i .standby).hel i) (fun r => { r with dev := Nat.zero_le _ }) (hr.1 i)).raiseD _

theorem pointing (h : Writes p false false s u) (i : Nat) (carried : Option Vec3) (r : GoodReply) :
    Writes p false false s (u.pointing i carried r) := by
  have hdev : Writes p false false s (u.modHel i fun h => { h with dev := min 15 ((u.hel i).dev + 1) }) :=
    h.hel i _ fun hr => Hel.inRange_of (h := u.hel i) (fun r => { r with dev := Nat.min_le_left _ _ }) (hr.1 i)
  unfold State.pointing
  split
  · exact h
  · split
    · dsimp only
      split
      · exact hdev.goTrackingError i
      · exact hdev
    · exact h

theorem consequences (h : Writes p false false s u) (i : Nat) (carried : Option Vec3) (r : GoodReply) :
    Writes p false false s (u.consequences i carried r) := by
  unfold State.consequences
  split
  · exact h.goFaulted i
  · split
    · split
      · exact h.queueOrStow i
      · exact h
    · exact h.pointing i carried r
    all_goals exact h

/-- A reply as a sound reception reports it (R105, R109). -/
theorem applyReply (h : Writes p false false s u) (i : Nat) (f : Frame) {r : GoodReply} (hfault : r.fault ≤ 15)
    (hnormal : r.normal.within 32767) : Writes p false false s (u.applyReply i f r) := by
  refine .consequences (.acknowledgeReply (h.hel i _ fun hr => ?_) i _ r) i _ r
  exact Hel.inRange_of (h := u.hel i) (fun x => { x with
    nRep := fun n hn => (by cases hn; exact hnormal), fault := hfault, miss := Nat.zero_le _ }) (hr.1 i)

/-! ### Protective actions -/

theorem stowOne (h : Writes p false false s u) (i : Nat) : Writes p false false s (u.stowOne i) := by
  unfold State.stowOne
  split
  · exact h.depart i _
  · exact h.dequeue i _
  · exact h.helMoved i _
  all_goals exact h

theorem unstowOne (h : Writes p q false s u) (i : Nat) : Writes p q false s (u.unstowOne i) := by
  unfold State.unstowOne
  dsimp only
  split
  · exact h.enqueue i
  · exact h

theorem defocusOne (h : Writes p false false s u) (i : Nat) : Writes p false false s (u.defocusOne i) := by
  unfold State.defocusOne
  split
  · exact (h.depart i _).enqueue i
  · exact h

/-! ### Sensors -/

theorem setShd (h : Writes p q r s u) (k : Nat) (high : Bool) : Writes p q r s (u.setShd k high) := h.units {}

theorem markStuck (h : Writes p q r s u) (k : Nat) : Writes p q r s (u.markStuck k) := (h.channel k _).raiseBoth _ _

theorem stuckCheck (h : Writes p q r s u) (k : Nat) : Writes p q r s (u.stuckCheck k) := by
  unfold State.stuckCheck
  split
  · exact h.markStuck k
  · exact h

theorem setDepths (h : Writes p q r s u) (d : BitVec 64) : Writes p q r s (u.setDepths d) := by
  refine foldl (fun v k hv => hv.channel k _ fun hc => ?_) _ h
  obtain ⟨-, hover, -⟩ := hc
  have hlo : 1 ≤ clamp 1 8 (byteAt d k).toNat ∧ clamp 1 8 (byteAt d k).toNat ≤ 8 := by unfold clamp; omega
  refine ⟨hlo, hover, ?_⟩
  simp only [Channel.setDepth, List.length_drop]
  omega

theorem setMaps (h : Writes p q r s u) (m : BitVec 64) : Writes p q r s (u.setMaps m) :=
  foldl (fun _ k hv => hv.shade k _) _ h

theorem setShf (h : Writes p false false s u) {f : Nat} (hf : f ≤ 256) : Writes p false false s (u.setShf f) := by
  have hw : Writes p false false s { u with scu := { u.scu with shf := f } } :=
    h.units { units := State.unitsOk_of fun r => { r with scu := ⟨hf, r.scu.2⟩ }, plain := .inl rfl }
  unfold State.setShf
  dsimp only
  split
  · exact hw
  · exact hw.shfSettle

/-! ### Sweeps -/

theorem draw (h : Writes p q r s u) {k : Nat} (hk : k ≤ 7) : Writes p q r s (u.draw k) := by
  have hreg : Writes p q r s { u with rsg := { u.rsg with reg := rsgNext u.rsg.reg } } :=
    h.units { units := State.unitsOk_of fun r =>
      { r with rsg := ⟨r.rsg.1, r.rsg.2.1, rsgNext_ne_zero r.rsg.2.2⟩ } }
  unfold State.draw
  dsimp only
  split
  · exact (hreg.timer k none fun _ d hd => by cases hd).release k
  · refine (hreg.timer k _ fun hu d hd => ?_).seg k _ ?_ ?_
    · obtain ⟨hstep, hdmax, -⟩ := ((State.unitsOk_iff _).1 hu).rsg
      cases hd
      have hmod := Nat.mod_lt u.rsg.reg.toNat (Nat.succ_pos u.rsg.dmax)
      have hprod : k * u.rsg.stepMs ≤ 7 * 255 := Nat.mul_le_mul hk hstep
      have hdraw : u.rsg.reg.toNat % (u.rsg.dmax + 1) ≤ u.rsg.dmax := Nat.le_of_lt_succ hmod
      exact (Nat.add_le_add hprod (hdraw.trans hdmax))
    · intro hg; unfold Seg.await; split <;> exact hg
    · intro hg; unfold Seg.await; split <;> exact hg

theorem drawFirst (h : Writes p q r s u) {n : Nat} (hn : n ≤ 8) : Writes p q r s (u.drawFirst n) := by
  induction n with
  | zero => exact h
  | succ n ih =>
    rw [State.drawFirst_succ]
    exact (ih (Nat.le_of_succ_le hn)).draw (Nat.le_of_succ_le_succ hn)

theorem startRsg (h : Writes p q r s u) : Writes p q r s u.startRsg := h.drawFirst (Nat.le_refl 8)

theorem commit (h : Writes p q false s u) : Writes p q false s u.commit := by
  refine h.updateHels Hel.commit (fun g hg => ?_) (.inl rfl) _
  unfold Hel.commit
  split
  · exact Hel.inRange_of (h := g) (fun r => { r with pClear := r.pNew }) hg
  · exact hg

theorem finishSweep (h : Writes p false false s u) : Writes p false false s u.finishSweep := by
  have hcount : Writes p false false s
      { u with sweep := { u.sweep with inFlight := false, count := (u.sweep.count + 1) % 65536 } } :=
    h.units { units := State.unitsOk_of fun r => { r with sweep := Nat.le_of_lt_succ (Nat.mod_lt _ (by decide)) } }
  unfold State.finishSweep
  dsimp only
  exact ((hcount.commit.settleAll).raiseD _).startRsg

end Writes

end Sys2Proof.Machine
end

section
/-! PROOFS. What every command does, as a chain of writes that ends with FIELD_CLEAR re-derived where one of its figures
may have changed; and with it the ranges, the protection settings and FIELD_CLEAR over every step. -/

-- One proof after another: begun all at once, the proofs of the whole text outgrow the check's memory.
set_option Elab.async false

namespace Sys2Proof.Machine

/-! ### The aim solution's products lie in their ranges (R2, R14) -/

theorem stowNormal_within : stowNormal.within 32767 := ⟨by decide, by decide, by decide⟩

theorem unitComponent_within (len : Nat) (d : Int) : -32767 ≤ unitComponent len d ∧ unitComponent len d ≤ 32767 := by
  unfold unitComponent
  dsimp only
  have hm := Nat.min_le_right ((2 * (d.natAbs * 32768) + len) / (2 * len)) 32767
  generalize (min _ _ : Nat) = m at hm ⊢
  split <;> omega

theorem Vec3.unit_within (len : Nat) (v : Vec3) : (v.unit len).within 32767 :=
  ⟨unitComponent_within _ _, unitComponent_within _ _, unitComponent_within _ _⟩

theorem component_within (w : BitVec 16) : -32767 ≤ component w ∧ component w ≤ 32767 := by
  have hhi := w.toInt_lt
  unfold component
  omega

theorem components_within (x y z : BitVec 16) : (components x y z).within 32767 :=
  ⟨component_within x, component_within y, component_within z⟩

/-- The largest contribution: the largest mirror and irradiance, with every factor at most 1 (R14). -/
theorem contribution_le {area dni refl c a : Nat} (harea : area ≤ 65535) (hdni : dni ≤ 1500) (hrefl : refl ≤ 1024)
    (hc : c ≤ 65535) (ha : a ≤ 65536) : contribution area dni refl c a ≤ 983025 := by
  have h1 : area * dni ≤ 98302500 := Nat.mul_le_mul harea hdni
  have h2 : area * dni * refl / 1024 ≤ 98302500 := by
    have := Nat.mul_le_mul h1 hrefl; omega
  have h3 : area * dni * refl / 1024 * c / 65536 ≤ 98302500 := by
    have := Nat.mul_le_mul h2 hc; omega
  have h4 : area * dni * refl / 1024 * c / 65536 * a / 65536 ≤ 98302500 := by
    have := Nat.mul_le_mul h3 ha; omega
  exact Nat.div_le_of_le_mul h4

/-- A solution in range: its normal and its contribution are. -/
def Solved.inRange : Solved → Prop
  | .found n p => n.within 32767 ∧ p ≤ 983025
  | .unlit | .geometry | .noSolution => True

theorem solveToward_inRange {snap : Option Sun} {h : Hel} (aim : Option Vec3) (hh : h.inRange)
    (hs : ∀ u, snap = some u → u.dni ≤ 1500) : (solveToward snap h aim).inRange := by
  obtain ⟨-, -, -, -, -, harea, hrefl, -⟩ := hh
  unfold solveToward
  split
  next u a =>
    have hdni : u.usedDni ≤ 1500 := by
      have := hs u rfl
      unfold Sun.usedDni
      split <;> omega
    have hcos m : cosineFactor m ≤ 65535 := Nat.min_le_right _ _
    have hatt l c : attenuation l c ≤ 65536 := Nat.sub_le _ _
    dsimp only
    split
    · split
      · trivial
      · split
        · trivial
        · exact ⟨Vec3.unit_within _ _, contribution_le harea hdni hrefl (hcos _) (hatt _ _)⟩
    · trivial
  · trivial

theorem State.compute_inRange {s : State} (hs : s.recordsOk) {h : Hel} (hh : h.inRange) (t : Target) :
    (s.compute h t).inRange :=
  solveToward_inRange _ hh hs.2.2

theorem Hel.writeNormal_inRange {h : Hel} (hh : h.inRange) (t : Target) {r : Solved} (hr : r.inRange) :
    (h.writeNormal t r).inRange := by
  cases r with
  | unlit => exact Hel.inRange_of (h := h) (fun x => { x with nCmd := stowNormal_within }) hh
  | geometry => exact hh
  | noSolution => exact hh
  | found n p => exact Hel.inRange_of (h := h) (fun x => { x with nCmd := hr.1 }) hh

theorem Hel.writeContribution_inRange {h : Hel} (hh : h.inRange) {r : Solved} (hr : r.inRange) :
    (h.writeContribution r).inRange := by
  cases r with
  | unlit => exact Hel.inRange_of (h := h) (fun x => { x with pNew := Nat.zero_le _ }) hh
  | geometry => exact Hel.inRange_of (h := h) (fun x => { x with pNew := Nat.zero_le _ }) hh
  | noSolution => exact Hel.inRange_of (h := h) (fun x => { x with pNew := Nat.zero_le _ }) hh
  | found n p => exact Hel.inRange_of (h := h) (fun x => { x with pNew := hr.2 }) hh

theorem State.budgetProduct_inRange {s : State} (hs : s.recordsOk) {h : Hel} (hh : h.inRange) {n : Solved}
    (hn : n.inRange) : (s.budgetProduct h n).inRange := by
  unfold State.budgetProduct
  split
  · trivial
  · split
    · exact hn
    · exact State.compute_inRange hs hh _

theorem State.visited_inRange {s : State} (hs : s.recordsOk) {h : Hel} (hh : h.inRange) : (s.visited h).inRange := by
  have hn := State.compute_inRange hs hh (s.currentTarget h)
  exact Hel.writeContribution_inRange (Hel.writeNormal_inRange hh _ hn) (State.budgetProduct_inRange hs hh hn)

theorem State.solved_inRange {s : State} (hs : s.recordsOk) {h : Hel} (hh : h.inRange) : (s.solved h).inRange :=
  Hel.writeNormal_inRange hh _ (State.compute_inRange hs hh _)

theorem ReplyFields.reply_inRange {r : ReplyFields} (hr : r.sound = true) :
    r.reply.fault ≤ 15 ∧ r.reply.normal.within 32767 := by
  simp only [ReplyFields.sound, Bool.and_eq_true, decide_eq_true_eq] at hr
  exact ⟨hr.2, components_within _ _ _⟩

theorem Identity.inRange_ranges {d : Identity} (hd : d.inRange = true) :
    d.segment ≤ 7 ∧ d.drop ≤ 250 ∧ d.pos.within 1000000 ∧ d.refl ≤ 1024 := by
  simp only [Identity.inRange, positionOk, inPlant, Bool.and_eq_true, decide_eq_true_eq, and_assoc] at hd
  obtain ⟨hseg, -, hdrop, hx, hx', hy, hy', hz, hz', -, hrefl⟩ := hd
  exact ⟨hseg, hdrop, ⟨⟨hx, hx'⟩, ⟨hy, hy'⟩, hz, hz'⟩, hrefl⟩

namespace Writes
variable {p q r : Bool} {s u : State}

theorem modSegs (h : Writes p q r s u) (f : Seg → Seg) (range : ∀ g : Seg, g.inRange → (f g).inRange)
    (slots : ∀ g : Seg, Tab.wf Slot.reset g.slots = true → Tab.wf Slot.reset (f g).slots = true) :
    Writes p q r s (u.modSegs f) :=
  h.updateSegs f range slots (List.range 8)

/-! ### The heliostat table -/

/-- A record written from operands in their ranges (R32, R33). -/
theorem writeRecord (h : Writes p q false s u) (i : Nat) {d : Identity} (hd : d.inRange = true) (harea : d.area ≤ 65535) :
    Writes p q false s (u.writeRecord i d) := by
  obtain ⟨hseg, hdrop, hpos, hrefl⟩ := Identity.inRange_ranges hd
  have hid {g : Hel} (hg : g.inRange) : (g.rewritten d).inRange :=
    Hel.inRange_of (h := g) (fun r => { r with segment := hseg, drop := hdrop, pos := hpos, area := harea, refl := hrefl }) hg
  unfold State.writeRecord
  dsimp only
  split
  · exact h.setHel i fun _ => Hel.inRange_of (h := Hel.empty)
      (fun r => { r with segment := hseg, drop := hdrop, pos := hpos, area := harea, refl := hrefl }) Hel.empty_inRange
  · split
    · exact (h.unsweep i).setHel i fun hr => hid (hr.1 i)
    · refine .setHel (((h.unsweep i).orphan _ i).urgentRemove _ i) i fun hr => ?_
      exact Hel.inRange_of (h := (u.hel i).rewritten d) (fun r => { r with
        seq := Nat.zero_le _, miss := Nat.zero_le _, dev := Nat.zero_le _
        nRep := fun _ hn => (by cases hn), fault := Nat.zero_le _ }) (hid (hr.1 i))

/-! ### Segments -/

theorem enableSeg (h : Writes p q r s u) (k : Nat) : Writes p q r s (u.enableSeg k) :=
  h.seg k _ (Seg.inRange_of fun r => { r with errorRun := Nat.zero_le _ })

theorem disableSeg (h : Writes p q r s u) (k : Nat) : Writes p q r s (u.disableSeg k) := h.seg k _ Seg.inRange.abandon

theorem setEnable (h : Writes p q r s u) (k : Nat) (enable : Bool) : Writes p q r s (u.setEnable k enable) :=
  .ite (.ite (h.enableSeg k) h) (.ite h (h.disableSeg k))

theorem restart (h : Writes p q r s u) (k : Nat) : Writes p q r s (u.restart k) := by
  have hseg : Writes p q r s (u.restartSeg k) := by
    refine h.seg k _ (fun hg => ?_) (fun hs => cancelRing_slots _ hs)
    exact Seg.inRange_of (g := cancelRing (u.seg k).count (u.seg k).abandon)
      (fun r => { r with
        invertedRun := Nat.zero_le _, errorRun := Nat.zero_le _, answered := Nat.zero_le _, missed := Nat.zero_le _
        crcErrors := Nat.zero_le _ }) (cancelRing_inRange _ hg.abandon)
  have hhels := hseg.updateHels (Hel.restarted k) (fun g hg => by
    unfold Hel.restarted
    split
    · exact Hel.inRange_of (h := g)
        (fun r => { r with seq := Nat.zero_le _, miss := Nat.zero_le _, dev := Nat.zero_le _ }) hg
    · exact hg) (.inr fun g => by unfold Hel.restarted; split <;> rfl) u.present
  exact .ite (hhels.raiseD _) hhels

theorem post (h : Writes p q r s u) (k i : Nat) (a : Action) (ops : BitVec 48) (hroom : (u.seg k).count < 16) :
    Writes p q r s (u.modSeg k fun g => g.post i a ops) :=
  h.seg k _ (Seg.inRange_of fun r => { r with count := hroom }) fun hs =>
    Tab.wf_put (d := Slot.reset) (t := (u.seg k).slots) hs (((u.seg k).head + (u.seg k).count) % 16)
      ⟨.part, i, a, bytes48 ops, .none, none⟩

/-! ### Receptions and misses -/

theorem missOutcome_writes (h : Writes p false false s u) (k : Nat) (f : Frame) :
    Followed p false s (u.missOutcome k f) := by
  have hmissed {v : State} (hv : Writes p false false s v) :
      Writes p false false s (v.modSeg k fun g => { g with missed := min 65535 (g.missed + 1) }) :=
    hv.seg k _ (Seg.inRange_of fun r => { r with missed := Nat.min_le_left _ _ })
  unfold State.missOutcome
  dsimp only
  refine .refresh (.ite (.maintReturn ?_ k _ _) ?_) <;> split
  · exact .ite (h.emptyFrame k) (hmissed ((h.emptyFrame k).missOne _))
  · exact h.emptyFrame k
  · exact .ite (h.emptyFrame k) (hmissed ((h.emptyFrame k).missOne _))
  · exact h.emptyFrame k

theorem corruptCounters (h : Writes p q r s u) (k : Nat) : Writes p q r s (u.corruptCounters k) := by
  have hcrc : Writes p q r s (u.modSeg k fun g =>
      { g with crcErrors := min 65535 (g.crcErrors + 1), invertedRun := 0 }) :=
    h.seg k _ (Seg.inRange_of fun r => { r with crcErrors := Nat.min_le_left _ _, invertedRun := Nat.zero_le _ })
  have hfall : Writes p q r s ((u.modSeg k fun g =>
      { g with crcErrors := min 65535 (g.crcErrors + 1), invertedRun := 0 }).modSeg k fun g =>
        { g with errorRun := 0, rate := g.rate.down }) :=
    hcrc.seg k _ (Seg.inRange_of fun r => { r with errorRun := Nat.zero_le _ })
  unfold State.corruptCounters
  dsimp only
  split
  · exact .ite hfall (hfall.raiseD _)
  next hrun =>
    refine hcrc.seg k _ (Seg.inRange_of fun r => { r with errorRun := ?_ })
    rw [State.seg_modSeg, if_pos rfl]
    dsimp only
    omega

end Writes

namespace Followed
variable {p : Bool} {s u : State}

theorem countReception (h : Writes p true false s u) (k : Nat) {f : Frame} (hf : (u.seg k).inRange → f.inRange)
    (corrupt : Bool) : Followed p false s (u.countReception k f corrupt) := by
  unfold State.countReception
  dsimp only
  split
  · exact h.loud.missOutcome_writes k _
  next hcount =>
    refine .quiet (h.seg k _ fun hg => hg.withFrame fun _ he => ?_)
    obtain ⟨hleft, -, hseq⟩ := hf hg
    cases he
    exact ⟨hleft, by dsimp only; omega, hseq⟩

/-- The counters of a corrupt reception leave the frame in flight. -/
theorem frame_corruptCounters (u : State) (k : Nat) : ((u.corruptCounters k).seg k).frame = (u.seg k).frame := by
  unfold State.corruptCounters
  dsimp only
  split
  · split <;> simp
  · simp

theorem corruptReception (h : Writes p true false s u) (k : Nat) {f : Frame} (hf : (u.seg k).frame = some f) :
    Followed p false s (u.corruptReception k f) :=
  countReception (h.corruptCounters k) k (fun hg => hg.frame ((frame_corruptCounters u k).trans hf)) true

theorem staleReply (h : Writes p true false s u) (k : Nat) {f : Frame} (hf : (u.seg k).frame = some f) :
    Followed p false s (u.staleReply k f) :=
  countReception (h.seg k _ (Seg.inRange_of fun r => { r with invertedRun := Nat.zero_le _ })) k
    (fun hg => hg.frame (by rw [State.seg_modSeg, if_pos rfl]; exact hf)) false

theorem qualifyingInverted (h : Writes p true false s u) (k : Nat) {f : Frame} (hf : (u.seg k).frame = some f) :
    Followed p false s (u.qualifyingInverted k f) := by
  unfold State.qualifyingInverted
  dsimp only
  split
  · refine countReception (.raiseD (h.seg k _ (Seg.inRange_of fun r => { r with invertedRun := Nat.zero_le _ })) _) k
      (fun hg => hg.frame ?_) false
    simpa using hf
  next hrun =>
    refine countReception (h.seg k _ (Seg.inRange_of fun r => { r with invertedRun := ?_ })) k
      (fun hg => hg.frame ?_) false
    · dsimp only; omega
    · rw [State.seg_modSeg, if_pos rfl]
      exact hf

theorem goodReply (h : Writes p false false s u) (k : Nat) (f : Frame) {r : GoodReply} (hfault : r.fault ≤ 15)
    (hnormal : r.normal.within 32767) : Followed p false s (u.goodReply k f r) := by
  have hended : Writes p false false s (u.modSeg k fun g => { g with frame := none, errorRun := 0, invertedRun := 0 }) :=
    h.seg k _ fun hg => Seg.inRange_of (g := { u.seg k with frame := none })
      (fun r => { r with errorRun := Nat.zero_le _, invertedRun := Nat.zero_le _ }) hg.noFrame
  have hanswered {v : State} (hv : Writes p false false s v) :
      Writes p false false s (v.modSeg k fun g => { g with answered := min 65535 (g.answered + 1) }) :=
    hv.seg k _ (Seg.inRange_of fun r => { r with answered := Nat.min_le_left _ _ })
  have hreturned {v : State} (hv : Writes p false false s v) : Writes p false false s (if f.origin = .maint then
      if f.orphaned then v.maintReturn k .noReply none else v.maintReturn k .done (f.replyData r) else v) :=
    .ite (.ite (hv.maintReturn k _ _) (hv.maintReturn k _ _)) hv
  unfold State.goodReply
  dsimp only
  refine .refresh (hreturned ?_)
  split
  · exact .ite hended (hanswered (hended.applyReply _ f hfault hnormal))
  · exact hended

theorem classify (h : Writes p true false s u) (k : Nat) {f : Frame} (hf : (u.seg k).frame = some f) (bytes : List Byte) :
    Followed p false s (u.classify k f bytes) := by
  unfold State.classify
  split
  · split
    · exact .quiet h
    · exact corruptReception h k hf
    · split
      · split
        · exact qualifyingInverted h k hf
        · exact corruptReception h k hf
      · exact .quiet h
    · split
      · split
        · exact corruptReception h k hf
        next hsound =>
          split
          · exact staleReply h k hf
          · have hr := ReplyFields.reply_inRange (by simpa using hsound)
            exact goodReply h.loud k f hr.1 hr.2
      · exact .quiet h
  · exact .quiet h

/-! ### Protective actions -/

theorem engageStow (h : Writes p false false s u) : Followed p false s u.engageStow :=
  .refresh (.raiseBoth (.modSegs (.foldl (fun _ i hv => hv.stowOne i) _ h) Seg.owe
    (fun g hg => by unfold Seg.owe; split <;> exact hg) (fun g hg => by unfold Seg.owe; split <;> exact hg)) _ _)

theorem releaseStow (h : Writes p false false s u) : Followed p false s u.releaseStow := by
  have hqueued : Writes p false false s (u.present.foldl State.unstowOne u) := .foldl (fun _ i hv => hv.unstowOne i) _ h
  unfold State.releaseStow
  dsimp only
  generalize u.present.foldl State.unstowOne u = v at hqueued
  have howed := hqueued.modSegs (fun g => { g with owed := false }) (fun _ => id) (fun _ => id)
  exact .refresh (howed.raiseBoth _ _).settleAll

theorem rederiveStow (h : Writes p true false s u) (before : Bool) : Followed p false s (u.rederiveStow before) := by
  unfold State.rederiveStow
  split
  · exact .quiet h
  · split
    · exact releaseStow h.loud
    · exact engageStow h.loud

theorem setStowCommand (h : Writes p true false s u) (b : Bool) : Followed p false s (u.setStowCommand b) :=
  rederiveStow (h.units { plain := .inl rfl }) _

theorem sampleLine (h : Writes p true false s u) (level : Bool) : Followed p false s (u.sampleLine level) := by
  have hsampled : Writes p true false s
      { u with pins := { u.pins with stowreqN := level }, pau := { u.pau with stowSampled := level } } := h.units {}
  unfold State.sampleLine
  dsimp only
  split
  · exact .quiet (hsampled.units {})
  · split
    · exact .quiet (hsampled.units {})
    · split
      · exact rederiveStow (hsampled.units { plain := .inl rfl }) _
      · exact .quiet hsampled

theorem engageDefocus (h : Writes p false false s u) (c : Cause) : Followed p false s (u.engageDefocus c) := by
  have hengaged : Writes p false false s { u with pau := u.pau.engage c } :=
    h.units { plain := .inl rfl, units := State.unitsOk_of fun r => { r with
      pau := by
        obtain ⟨hdeadline, hperiod, -, hsl⟩ := r.pau
        exact ⟨hdeadline, hperiod, fun d hd => by cases hd; exact Nat.mul_le_mul_right 100 hdeadline.2, hsl⟩ } }
  have hmoved := (Writes.foldl (fun _ i hv => hv.defocusOne i) u.present hengaged).raiseD .defocusChange
  unfold State.engageDefocus
  dsimp only
  split
  · exact .post (.refresh hmoved) (.raiseP .refl _) fun hp => by
      rw [State.pPending_raiseP]
  · exact .refresh hmoved

theorem releaseDefocus (h : Writes p false false s u) : Followed p false s u.releaseDefocus := by
  have hreleased : Writes p false false s
      { u with pau := { u.pau with defocus := false, cause := .none, deadlineLeft := none } } :=
    h.units { units := State.unitsOk_of fun r => { r with
      pau := ⟨r.pau.1, r.pau.2.1, fun _ hd => (by cases hd), r.pau.2.2.2⟩ } }
  unfold State.releaseDefocus
  dsimp only
  exact .refresh (hreleased.raiseD .defocusChange).settleAll

theorem deadlineEnd (h : Writes p true false s u) : Followed p false s u.deadlineEnd := by
  have hstopped : Writes p true false s { u with pau := { u.pau with deadlineLeft := none } } :=
    h.units { units := State.unitsOk_of fun r => { r with
      pau := ⟨r.pau.1, r.pau.2.1, fun _ hd => (by cases hd), r.pau.2.2.2⟩ } }
  exact .quiet (.ite (.raiseP (hstopped.units { plain := .inl rfl }) _) hstopped)

theorem supervisionEnd (h : Writes p true false s u) : Followed p false s u.supervisionEnd := by
  have hstopped : Writes p true false s { u with pau := { u.pau with supLeft := none } } :=
    h.units { units := State.unitsOk_of fun r => { r with
      pau := ⟨r.pau.1, r.pau.2.1, r.pau.2.2.1, fun _ hd => (by cases hd)⟩ } }
  unfold State.supervisionEnd
  dsimp only
  split
  · exact .quiet (hstopped.raiseBoth _ _)
  · exact engageDefocus (hstopped.raiseBoth _ _).loud _

/-! ### Sensors -/

theorem reshade (h : Writes p false false s u) (k : Nat) : Followed p false s (u.reshade k) := .refresh (h.rederiveList _)

theorem shadeOnset (h : Writes p false false s u) (k : Nat) (start : Millis) : Followed p false s (u.shadeOnset k start) := by
  have honset : Writes p false false s (u.modChannel k fun c => c.onset start) := by
    refine h.channel k _ fun ⟨hdepth, hover, hroom⟩ => ⟨hdepth, ?_, ?_⟩
    · simp only [Channel.onset]
      split
      · exact hover
      · exact Nat.min_le_left _ _
    · simp only [Channel.onset, Channel.hasRoom, decide_eq_true_eq]
      split
      · simpa using Nat.succ_le_of_lt ‹_›
      · exact hroom
  exact reshade (.ite honset (honset.raiseD _)) k

theorem shadeEnd (h : Writes p false false s u) (k : Nat) (stop : Millis) : Followed p false s (u.shadeEnd k stop) :=
  reshade (h.channel k _ fun ⟨hdepth, hover, hroom⟩ => ⟨hdepth, hover, by simpa [Channel.finish] using hroom⟩) k

theorem qualify (h : Writes p false false s u) (k : Nat) (start : Millis) : Followed p false s (u.qualify k start) := by
  unfold State.qualify
  split
  · exact shadeOnset h k start
  · exact shadeEnd h k start

theorem sampleSensor (h : Writes p true false s u) (k : Nat) (level : Bool) : Followed p false s (u.sampleSensor k level) := by
  unfold State.sampleSensor
  dsimp only
  split
  · exact .quiet (h.channel k _)
  · split
    · split
      · exact qualify h.loud k _
      · exact .quiet (h.channel k _)
    · split
      · exact qualify h.loud k _
      · exact .quiet h

theorem setShade (h : Writes p false false s u) (maps : BitVec 64) {shf qual shadeMax : Nat} (hshf : shf ≤ 256)
    (hqual : qual ≤ 255) (hmax : shadeMax ≤ 255) (depths : BitVec 64) :
    Followed p false s (u.setShade maps shf qual shadeMax depths) := by
  have hq {v : State} (hv : Writes p false false s v) : Writes p false false s { v with scu := { v.scu with qual := qual } } :=
    hv.units { units := State.unitsOk_of fun r => { r with scu := ⟨r.scu.1, hqual, r.scu.2.2⟩ } }
  have hm {v : State} (hv : Writes p false false s v) : Writes p false false s { v with scu := { v.scu with shadeMax := shadeMax } } :=
    hv.units { units := State.unitsOk_of fun r => { r with scu := ⟨r.scu.1, r.scu.2.1, hmax⟩ } }
  have hrest {v : State} (hv : Writes p false false s v) (ks ks' : List Nat) :
      Writes p false false s (((ks.foldl State.stuckCheck v).setMaps maps).rederiveList ks') :=
    .rederiveList (.setMaps (.foldl (fun _ k hw => hw.stuckCheck k) ks hv) maps) ks'
  have hdepths := hq (h.setDepths depths)
  unfold State.setShade
  dsimp only
  exact .refresh (hrest (hm (hdepths.setShf hshf)) _ _)

/-! ### Sweeps and solves -/

theorem completeSweep (h : Writes p false false s u) (first : Byte) : Followed p false s (u.completeSweep first) := by
  have hall ks ks' : Writes p false false s (((u.accrue ks).finishSweep).accrue ks') := ((h.accrue ks).finishSweep).accrue ks'
  unfold State.completeSweep
  dsimp only
  exact .refresh (hall _ _)

theorem startSweep (h : Writes p true false s u) : Followed p false s u.startSweep := by
  have hstarted : Writes p true false s { u with
      snapshot := some u.sun
      sweep := { u.sweep with inFlight := true, remaining := u.present, lastVisited := none } } :=
    h.units {
      units := State.unitsOk_of fun r => { r with snapshot := fun v hv => by cases hv; exact r.sun }
      sun := fun hu => ⟨hu.1, fun v hv => by cases hv; exact hu.1⟩ }
  unfold State.startSweep
  dsimp only
  split
  · exact completeSweep hstarted.loud _
  · exact .quiet hstarted

end Followed

theorem Hel.booked_writeNormal (h : Hel) (t : Target) (x : Solved) : (h.writeNormal t x).booked = h.booked := by
  cases x <;> rfl

theorem Hel.booked_writeContribution (h : Hel) (x : Solved) : (h.writeContribution x).booked = h.booked := by
  cases x <;> rfl

/-- A visit writes products, flags and mark (R83). -/
theorem State.booked_visited (s : State) (h : Hel) : (s.visited h).booked = h.booked :=
  (Hel.booked_writeContribution _ _).trans (Hel.booked_writeNormal _ _ _)

theorem State.booked_solved (s : State) (h : Hel) : (s.solved h).booked = h.booked := Hel.booked_writeNormal _ _ _

namespace Writes
variable {p q r : Bool} {s u : State}

theorem visit (h : Writes p q r s u) (i : Nat) (rest : List Nat) : Writes p q r s (u.visit i rest) :=
  (h.hel i u.visited (fun hr => State.visited_inRange hr (hr.1 i)) (u.booked_visited _)).units {}

theorem takeSolve (h : Writes p q r s u) {k : Nat} (hk : k ≤ 7) : Writes p q r s (u.takeSolve k) := by
  unfold State.takeSolve
  split
  next f hf =>
    have hrecord : Writes p q r s (u.solveRecord f) := by
      unfold State.solveRecord
      split
      · exact .ite h (h.hel _ _ (fun hr => State.solved_inRange hr (hr.1 _)) (u.booked_solved _))
      · exact h
    have hframe : ((u.solveRecord f).seg k).frame = some f := by
      rw [← hf]
      unfold State.solveRecord
      split
      · split <;> rfl
      · rfl
    have htaken : Writes p q r s ((u.solveRecord f).modSeg k fun g => { g with frame := some { f with taken := true } }) :=
      hrecord.seg k _ fun hg => hg.withFrame fun _ he => by cases he; exact hg.frame (f := f) hframe
    exact htaken.units { units := State.unitsOk_of fun r => { r with lastServed := hk } }
  · exact h

theorem handAnswer (h : Writes p q r s u) (o : SolveOut) : Writes p q r s (u.handAnswer o) := by
  have hout : Writes p q r s { u with solveOut := none } := h.units {}
  unfold State.handAnswer
  dsimp only
  split
  next f hf =>
    split
    · split
      · exact hout.emptyFrame _
      · exact hout.answerSolve _ fun hg => hg.frame hf
    · exact hout
  · exact hout

theorem handOver (h : Writes p q r s u) : Writes p q r s u.handOver := by
  unfold State.handOver
  split
  · exact h.handAnswer _
  · exact h

end Writes

theorem State.nextSolve_le {s : State} {k : Nat} (h : s.nextSolve = some k) : k ≤ 7 := by
  have hmem := List.mem_of_find?_eq_some h
  obtain ⟨j, -, rfl⟩ := List.mem_map.1 hmem
  omega

end Sys2Proof.Machine
end

section
/-! PROOFS. Every command as a chain of writes. -/

-- One proof after another: begun all at once, the proofs of the whole text outgrow the check's memory.
set_option Elab.async false

namespace Sys2Proof.Machine

/-- The commands that write a protection setting (R53, R55, R56, R164, R167). -/
def setsProtection : Instr → Bool
  | .setProtectLimit _ _ | .hold _ | .unhold _ | .setRamp _ _ | .setDeadline _ | .supervise _ => true
  | _ => false

/-- The commands that leave what the books of the field and the budget read. -/
def leavesBooks : Instr → Bool
  | .readHeliostat _ | .readZone _ _ | .readJoinList _ | .readQueue _ | .setSun _ _ _ _ _ | .setEpoch _ | .setStagger _ _ _
  | .setLink _ _ _ _ _ _ _ _ | .restartSegment _ | .postMaint _ _ _ _ | .readSegment _ | .readMaint _ | .readCapture _
  | .setForm _ | .readStatus _ | .setMask _ _ | .ackEvents _ _ | .hold _ | .setRamp _ _ | .setDeadline _ | .supervise _
  | .unknownCommand _ _ | .transactionDiscard _ | .transactionBegin _ | .transactionEnd _ | .readObjectFix _ | .sweepVisit
  | .solve | .solveBegun | .releaseTimerExpiry _ | .nextItemTaken _ | .frameSent _ | .segmentLocked _ | .quietExpiry _
  | .receptionBegins _ _ _ | .lineFallsIdle _ | .rxLineActive _ => true
  | _ => false

/-- Command `c` acts on `s`, and is a chain of writes that FIELD_CLEAR follows. -/
def FollowedBy (s : State) (c : Instr) : Prop := ∃ t, exec c s = .next t ∧ Followed (setsProtection c) (leavesBooks c) s t

namespace Writes
variable {p q r : Bool} {s u : State}

/-- An expiry of the Epoch Timer loads a period in its range (R78). -/
theorem reload (h : Writes p q r s u) : Writes p q r s { u with epoch := u.epoch.reload } := by
  refine h.units { units := State.unitsOk_of fun r => { r with epoch := ?_ } }
  obtain ⟨hrun, hperiod, hpending, hcount⟩ := r.epoch
  have hp : u.epoch.pendingPeriod.getD u.epoch.period ≤ 65535
      ∧ (u.epoch.running = true → 250 ≤ u.epoch.pendingPeriod.getD u.epoch.period) := by
    cases hx : u.epoch.pendingPeriod with
    | none => exact ⟨hperiod, hrun⟩
    | some x => exact ⟨(hpending x hx).2, fun _ => (hpending x hx).1⟩
  exact ⟨hp.2, hp.1, fun _ h => (by cases h), hp.1⟩

/-- A segment is locked (R131). -/
theorem lock (h : Writes p q r s u) (k : Nat) :
    Writes p q r s (u.modSeg k fun g => { g.abandon with state := .locked, activeUs := none }) :=
  h.seg k _ Seg.inRange.abandon

/-- A lock ends (R132). -/
theorem unlock (h : Writes p q r s u) (k : Nat) (x : SState) :
    Writes p q r s (u.modSeg k fun g => { g with state := x, quietLeft := none }) :=
  h.seg k _ (Seg.inRange_of fun r => { r with quietLeft := fun _ hd => by cases hd })

end Writes

namespace FollowedBy

/-! ### Deliveries -/

section
variable {p r : Bool} {u : State}

theorem withRecord {index : BitVec 16} {act : Nat → Hel → State → State × Code}
    (hact : ∀ i h, Followed p r u (act i h u).1) : Followed p r u (Machine.withRecord index act u).1 := by
  unfold Machine.withRecord
  split
  · exact .quiet .refl
  · split
    · exact .quiet .refl
    · exact hact _ _

theorem withZone {zone : Byte} {act : Nat → State → State × Code} (hact : ∀ z, Followed p r u (act z u).1) :
    Followed p r u (Machine.withZone zone act u).1 := by
  unfold Machine.withZone
  split
  · exact .quiet .refl
  · exact hact _

/-- An action with its code. -/
theorem taken {t : State} {c : Code} (h : Followed p r u t) : Followed p r u (t, c).1 := h

/-- An action of quiet writes, with its code. -/
theorem still {t : State} {c : Code} (h : Writes p true r u t) : Followed p r u (t, c).1 := .quiet h

/-- An action that re-derives FIELD_CLEAR at its end, with its code. -/
theorem ended {t : State} {c : Code} (h : Writes p false false u t) : Followed p false u (t.refreshClear, c).1 :=
  taken (t := t.refreshClear) (.refresh h)

/-- A refusal changes nothing. -/
theorem refused {c : Code} : Followed p r u (u, c).1 := .quiet .refl

/-- An action of one of two branches. -/
theorem ite {c : Prop} [Decidable c] {a b : State × Code} (ha : c → Followed p r u a.1) (hb : ¬ c → Followed p r u b.1) :
    Followed p r u (if c then a else b).1 := by
  split
  · exact ha ‹_›
  · exact hb ‹_›

end

variable (s : State)

theorem deliverRead {c : Instr} (start : State → Option Cursor) :
    ∃ t, Machine.deliverRead c start s = .next t ∧ Followed (setsProtection c) (leavesBooks c) s t :=
  ⟨_, rfl, Writes.deliverWith fun u => by
    split
    · exact .units .refl {}
    · exact .refl⟩

theorem deliverObject {c : Instr} (ok : Bool) (object : State → List Byte) :
    ∃ t, Machine.deliverObject c ok object s = .next t ∧ Followed (setsProtection c) (leavesBooks c) s t :=
  ⟨_, rfl, Writes.deliverWith fun _ => .refl⟩

/-! ### The heliostat table -/

theorem writeHeliostat (index : BitVec 16) (segment drop : Byte) (x y z : BitVec 32) (area refl : BitVec 16) :
    FollowedBy s (.writeHeliostat index segment drop x y z area refl) := by
  refine ⟨_, rfl, .deliverWith fun u => ite (fun _ => refused) fun _ => ?_⟩
  cases hcheck : u.writeRefusal index.toNat
      ⟨segment.toNat, drop.toNat, ⟨x.toInt, y.toInt, z.toInt⟩, area.toNat, refl.toNat⟩ with
  | some c => exact refused
  | none =>
    have hd : Identity.inRange ⟨segment.toNat, drop.toNat, ⟨x.toInt, y.toInt, z.toInt⟩, area.toNat, refl.toNat⟩ = true := by
      by_contra hd
      unfold State.writeRefusal at hcheck
      split at hcheck
      · cases hcheck
      · rw [if_pos (by simpa using hd)] at hcheck
        cases hcheck
    exact still (.writeRecord .refl _ hd (Nat.le_of_lt_succ area.isLt))

theorem assign (index : BitVec 16) (point : Byte) : FollowedBy s (.assign index point) := by
  refine ⟨_, rfl, .deliverWith fun u => withRecord fun i h => ite (fun _ => refused) fun _ => ?_⟩
  split
  · exact ite (fun _ => ended (.assignTo .refl _ _)) fun _ => refused
  · exact ended (.assignTo .refl _ _)

theorem park (index : BitVec 16) : FollowedBy s (.park index) := by
  refine ⟨_, rfl, .deliverWith fun u => withRecord fun i h => ?_⟩
  split
  · exact still (.dequeue .refl _ _)
  · exact ended (.depart .refl _ _)
  all_goals exact refused

theorem exclude (index : BitVec 16) : FollowedBy s (.exclude index) :=
  ⟨_, rfl, .deliverWith fun _ => withRecord fun i _ => ite (fun _ => refused) fun _ =>
    ite (fun _ => refused) fun _ =>
      still (.helMoved (.urgentRemove .refl _ _) i (fun h => { h with state := .excluded }))⟩

theorem includeHel (index : BitVec 16) : FollowedBy s (.includeHel index) :=
  ⟨_, rfl, .deliverWith fun _ => withRecord fun _ _ =>
    ite (fun _ => still (.queueOrStow .refl _)) fun _ => refused⟩

theorem clearFault (index : BitVec 16) : FollowedBy s (.clearFault index) :=
  ⟨_, rfl, .deliverWith fun u => withRecord fun i _ => ite
    (fun _ => ended (.helMoved (.clearDeparture (.releaseFlux .refl i) i) i _ fun hr =>
      Hel.inRange_of (h := ((u.releaseFlux i).clearDeparture i).hel i)
        (fun r => { r with dev := Nat.zero_le _ }) (hr.1 i)))
    fun _ => refused⟩

theorem releaseStranded (index : BitVec 16) : FollowedBy s (.releaseStranded index) :=
  ⟨_, rfl, .deliverWith fun _ => withRecord fun i _ => ite (fun _ => refused) fun _ =>
    ite (fun _ => refused) fun _ => ended (.clearDeparture (.releaseFlux .refl i) i)⟩

theorem retire (index : BitVec 16) : FollowedBy s (.retire index) :=
  ⟨_, rfl, .deliverWith fun _ => withRecord fun i _ => ite (fun _ => refused) fun _ =>
    ite (fun _ => refused) fun _ => ended (.retireRecord .refl i)⟩

/-! ### Points and zones -/

theorem writeAimpoint (point valid : Byte) (x y z : BitVec 32) (zone alternate : Byte) :
    FollowedBy s (.writeAimpoint point valid x y z zone alternate) := by
  refine ⟨_, rfl, .deliverWith fun u => ?_⟩
  split
  · exact refused
  · refine still ?_
    unfold State.writePoint
    exact .point .refl _ _

theorem setZone (zone : Byte) (limit : BitVec 16) (standby : Byte) : FollowedBy s (.setZone zone limit standby) :=
  ⟨_, rfl, .deliverWith fun _ => withZone fun z => ite (fun _ => refused) fun _ =>
    ended (.settle (.zoneQuiet .refl z _ fun h => ⟨h.1, Nat.le_of_lt_succ limit.isLt, h.2.2⟩) z)⟩

/-- A write of a zone's protection settings. -/
theorem zoneSettings {r : Bool} {u : State} (z : Nat) (f : Zone → Zone)
    (range : (u.zone z).inRange → (f (u.zone z)).inRange) (figures : (f (u.zone z)).figures = (u.zone z).figures)
    (plain : r = false ∨ (f (u.zone z)).booked = (u.zone z).booked) : Writes true true r u (u.modZone z f) :=
  Relation.ReflTransGen.single (.zone u z f range (.inl rfl) (.inr figures) plain)

theorem setProtectLimit (zone : Byte) (limit : BitVec 16) : FollowedBy s (.setProtectLimit zone limit) :=
  ⟨_, rfl, .deliverWith fun _ => withZone fun z => ended (.settle (zoneSettings z _
    (fun h => ⟨h.1, h.2.1, Nat.le_of_lt_succ limit.isLt⟩) rfl (.inl rfl)).loud z)⟩

theorem hold (zone : Byte) : FollowedBy s (.hold zone) :=
  ⟨_, rfl, .deliverWith fun _ => withZone fun z => ite (fun _ => refused) fun _ =>
    still (zoneSettings z _ id rfl (.inr rfl))⟩

theorem unhold (zone : Byte) : FollowedBy s (.unhold zone) :=
  ⟨_, rfl, .deliverWith fun _ => withZone fun z => ite
    (fun _ => ended (.settleAll (zoneSettings z (fun zn => { zn with hold := false }) id rfl (.inl rfl)).loud))
    fun _ => refused⟩

theorem setRamp (zone value : Byte) : FollowedBy s (.setRamp zone value) :=
  ⟨_, rfl, .deliverWith fun _ => withZone fun z => still (zoneSettings z _
    (fun h => ⟨by dsimp only; unfold clamp; omega, h.2⟩) rfl (.inr rfl))⟩

/-! ### Part-wide settings -/

theorem setSun (sx sy sz dni atc : BitVec 16) : FollowedBy s (.setSun sx sy sz dni atc) :=
  ⟨_, rfl, .deliverWith fun u => ite
    (fun _ => still (.units .refl {
      units := State.unitsOk_of fun r => { r with sun := ⟨Nat.min_le_left _ _, Nat.min_le_left _ _⟩ }
      sun := fun h => ⟨Nat.min_le_left _ _, h.2⟩ }))
    fun _ => still (.raiseD .refl _)⟩

theorem epochPeriod_range {v : Nat} (hv : v ≤ 65535) (h : epochPeriod v ≠ 0) :
    250 ≤ epochPeriod v ∧ epochPeriod v ≤ 65535 := by
  unfold epochPeriod at h ⊢
  split
  · rename_i h0
    exact absurd (if_pos h0) h
  · omega

theorem setEpoch (period : BitVec 16) : FollowedBy s (.setEpoch period) := by
  refine ⟨_, rfl, .deliverWith fun u => still (.units .refl { units := State.unitsOk_of fun r => { r with epoch := ?_ } })⟩
  obtain ⟨hrun, hperiod, hpending, hcount⟩ := r.epoch
  change (u.epoch.write (epochPeriod period.toNat)).inRange
  unfold Epoch.write
  split
  · exact ⟨fun h => (by cases h), Nat.zero_le _, fun _ h => (by cases h), Nat.zero_le _⟩
  next hp =>
    have hp' := epochPeriod_range (Nat.le_of_lt_succ period.isLt) hp
    split
    · exact ⟨hrun, hperiod, fun _ h => (by cases h; exact hp'), hcount⟩
    · exact ⟨fun _ => hp'.1, hp'.2, hpending, hp'.2⟩

theorem epochNow : FollowedBy s .epochNow :=
  ⟨_, rfl, .deliverWith fun _ => ite (fun _ => refused) fun _ => taken (.startSweep .refl)⟩

theorem setStagger (stepMs dmax seed : Byte) : FollowedBy s (.setStagger stepMs dmax seed) := by
  refine ⟨_, rfl, .deliverWith fun u => still (.units .refl { units := State.unitsOk_of fun r => { r with
    rsg := ⟨Nat.le_of_lt_succ stepMs.isLt, Nat.le_of_lt_succ dmax.isLt, ?_⟩ } })⟩
  dsimp only
  split
  · decide
  · assumption

theorem setLink (segment enable rate timeout quiet missLimit devLimit : Byte) (ptol : BitVec 16) :
    FollowedBy s (.setLink segment enable rate timeout quiet missLimit devLimit ptol) := by
  refine ⟨_, rfl, .deliverWith fun u => ?_⟩
  have htimeout := timeout.isLt
  have hquiet := quiet.isLt
  split
  · exact refused
  · refine ite (fun _ => refused) fun _ => still (.units (.seg (.setEnable .refl _ _) _ (fun g => { g with
        confRate := _, rate := _, errorRun := 0, timeout := max 1 timeout.toNat, quiet := max 1 quiet.toNat })
      (Seg.inRange_of fun r => { r with timeout := ?_, quiet := ?_, errorRun := Nat.zero_le _ }))
      { units := State.unitsOk_of fun r => { r with link := ?_ } })
    · dsimp only; omega
    · dsimp only; omega
    · simp only [LinkSettings.inRange, clamp, clampPtol]; omega

theorem restartSegment (segment : Byte) : FollowedBy s (.restartSegment segment) :=
  ⟨_, rfl, .deliverWith fun _ => ite (fun _ => refused) fun _ => still (.restart .refl _)⟩

theorem postMaint (segment : Byte) (index : BitVec 16) (action : Byte) (ops : BitVec 48) :
    FollowedBy s (.postMaint segment index action ops) := by
  refine ⟨_, rfl, .deliverWith fun u => ?_⟩
  split
  · exact refused
  · exact ite (fun _ => refused) fun _ => ite (fun _ => refused) fun hroom =>
      still (.post .refl _ _ _ _ (by omega))

theorem setShade (maps : BitVec 64) (shf : BitVec 16) (qual shadeMax : Byte) (depths : BitVec 64) :
    FollowedBy s (.setShade maps shf qual shadeMax depths) :=
  ⟨_, rfl, .deliverWith fun _ => taken (.setShade .refl maps (Nat.min_le_left _ _)
    (Nat.le_of_lt_succ qual.isLt) (Nat.le_of_lt_succ shadeMax.isLt) depths)⟩

theorem readCapture (sensor : Byte) : FollowedBy s (.readCapture sensor) := by
  refine ⟨_, rfl, .deliverWith fun u => ite (fun _ => refused) fun _ => still (.channel .refl _ _ fun h => ?_)⟩
  obtain ⟨hdepth, -, hroom⟩ := h
  refine ⟨hdepth, Nat.zero_le _, ?_⟩
  unfold Channel.taken
  dsimp only
  split
  next r rest heq =>
    rw [heq] at hroom
    split
    · exact (Nat.le_succ _).trans hroom
    · exact hroom
  · exact Nat.zero_le _

theorem setForm (form : Byte) : FollowedBy s (.setForm form) := by
  refine ⟨_, rfl, .deliverWith fun u => ?_⟩
  split
  · exact still (.units .refl {})
  · exact refused

theorem setMask (port : Port) (events : BitVec 24) : FollowedBy s (.setMask port events) :=
  ⟨_, rfl, .deliverWith fun u => still (by cases port <;> exact .units .refl {})⟩

theorem ackEvents (port : Port) (events : BitVec 24) : FollowedBy s (.ackEvents port events) :=
  ⟨_, rfl, .deliverWith fun u => still (by cases port <;> exact .units .refl {})⟩

theorem unknownCommand (port : Port) (code : Byte) : FollowedBy s (.unknownCommand port code) := by
  change ∃ t, execUnknownCommand port code s = .next t ∧ Followed false true s t
  unfold execUnknownCommand
  split
  · exact ⟨_, rfl, .deliverWith fun _ => refused⟩
  · exact ⟨_, rfl, .quiet .refl⟩

/-! ### The protection port -/

theorem fieldDefocus : FollowedBy s .fieldDefocus := by
  refine ⟨_, rfl, .deliverWith fun u => ?_⟩
  dsimp only
  split
  · exact .quiet .refl
  · exact .engageDefocus .refl _

theorem fieldRelease : FollowedBy s .fieldRelease := by
  refine ⟨_, rfl, .deliverWith fun u => ?_⟩
  dsimp only
  split
  · exact .releaseDefocus .refl
  · exact .quiet .refl

theorem setDeadline (value : BitVec 16) : FollowedBy s (.setDeadline value) :=
  ⟨_, rfl, .deliverWith fun _ => still (.units .refl {
    units := State.unitsOk_of fun r => { r with pau := ⟨by dsimp only; unfold clamp; omega, r.pau.2⟩ }
    protection := .inl rfl })⟩

theorem supervise (period : Byte) : FollowedBy s (.supervise period) := by
  refine ⟨_, rfl, .deliverWith fun u => still (.units .refl {
    units := State.unitsOk_of fun r => { r with
      pau := ⟨r.pau.1, Nat.le_of_lt_succ period.isLt, r.pau.2.2.1, fun d hd => ?_⟩ }
    protection := .inl rfl })⟩
  simp only [Pau.supervise] at hd
  split at hd
  · cases hd
  · exact r.pau.2.2.2 d hd

/-! ### Ports -/

theorem selectFall (port : Port) : Followed false true s (s.selectFall port) := by
  unfold State.selectFall
  split
  · exact .quiet .refl
  · exact .quiet (.setTxn (.setSelect .refl _ _) _ _)

theorem selectRise (port : Port) : Followed false true s (s.selectRise port) := by
  unfold State.selectRise
  split
  · exact .quiet (.setTxn (.setSelect .refl _ _) _ _)
  · exact .quiet .refl

theorem fixObject (port : Port) : Followed false true s (s.fixObject port) := by
  have hdraw : Writes false true true s { s with draws := s.draws + 1 } := .units .refl {}
  unfold State.fixObject
  dsimp only
  split
  · split
    · exact .quiet (hdraw.setTxn _ _)
    · exact .quiet (.setTxn .refl _ _)
  · exact .quiet .refl

/-! ### Sweeps and solves -/

theorem epochExpiry : FollowedBy s .epochExpiry := by
  refine ⟨_, rfl, ?_⟩
  have hreload := (Writes.elapse (p := false) (q := true) (r := false) (.refl (a := s)) s.epoch.countdown).reload
  split
  · dsimp only
    split
    · exact .quiet (hreload.raiseD _)
    · exact .startSweep hreload
  · exact .quiet .refl

theorem sweepVisit : FollowedBy s .sweepVisit := by
  refine ⟨_, rfl, ?_⟩
  split
  · exact .quiet (.visit .refl _ _)
  · exact .quiet .refl

theorem sweepComplete (first : Byte) : FollowedBy s (.sweepComplete first) := by
  refine ⟨_, rfl, ?_⟩
  split
  · exact .completeSweep .refl _
  · exact .quiet .refl

theorem solve : FollowedBy s .solve := by
  refine ⟨_, rfl, ?_⟩
  split
  next hk => exact .quiet ((Writes.takeSolve .refl (State.nextSolve_le hk)).handOver)
  · exact .quiet (.handOver .refl)

theorem solveBegun : FollowedBy s .solveBegun := by
  refine ⟨_, rfl, ?_⟩
  split
  next hk => exact .quiet (Writes.takeSolve .refl (State.nextSolve_le hk))
  · exact .quiet .refl

theorem releaseTimerExpiry (segment : Fin 8) : FollowedBy s (.releaseTimerExpiry segment) := by
  refine ⟨_, rfl, ?_⟩
  split
  · exact .quiet (.release (.timer (.elapse .refl _) _ none fun _ _ h => by cases h) _)
  · exact .quiet .refl

/-! ### Segments -/

theorem nextItemTaken (segment : Fin 8) : FollowedBy s (.nextItemTaken segment) := by
  refine ⟨_, rfl, ?_⟩
  split
  · exact .quiet (.takeNext .refl _)
  · exact .quiet .refl

theorem frameSent (segment : Fin 8) : FollowedBy s (.frameSent segment) := by
  refine ⟨_, rfl, ?_⟩
  split
  next f hf =>
    split
    · refine .quiet (.seg .refl _ _ fun hg => Seg.inRange.withFrame (g := { s.seg segment with activeUs := _ }) hg ?_)
      intro f' hf'
      unfold Seg.sent at hf'
      split at hf'
      · cases hf'
      · cases hf'
        have htimeout := (Seg.inRange_iff.1 hg).timeout.2
        exact ⟨Nat.mul_le_mul_right 100 htimeout, Nat.zero_le _, (hg.frame hf).2.2⟩
    · exact .quiet .refl
  · exact .quiet .refl

theorem receptionComplete (segment : Fin 8) (bytes : List Byte) : FollowedBy s (.receptionComplete segment bytes) := by
  refine ⟨_, rfl, ?_⟩
  split
  next hf =>
    split
    · exact .classify .refl _ hf _
    · exact .quiet .refl
  · exact .quiet .refl

theorem receptionBroken (segment : Fin 8) : FollowedBy s (.receptionBroken segment) := by
  refine ⟨_, rfl, ?_⟩
  split
  next hf =>
    split
    · exact .corruptReception .refl _ hf
    · exact .quiet .refl
  · exact .quiet .refl

theorem replyTimeout (segment : Fin 8) : FollowedBy s (.replyTimeout segment) := by
  refine ⟨_, rfl, ?_⟩
  split
  · split
    · exact (Writes.elapse .refl _).missOutcome_writes _ _
    · exact .quiet .refl
  · exact .quiet .refl

theorem receptionBegins (segment : Fin 8) (marker : Byte) (us : Nat) :
    FollowedBy s (.receptionBegins segment marker us) := by
  refine ⟨_, rfl, ?_⟩
  split
  next f hf =>
    split
    · refine .quiet (.seg .refl _ _ fun hg => hg.withFrame fun f' hf' => ?_)
      obtain ⟨hleft, hrest⟩ := hg.frame hf
      cases hf'
      exact ⟨(Nat.sub_le _ _).trans hleft, hrest⟩
    · exact .quiet .refl
  · exact .quiet .refl

theorem segmentLocked (segment : Fin 8) : FollowedBy s (.segmentLocked segment) := by
  refine ⟨_, rfl, ?_⟩
  split
  · exact .quiet .refl
  · exact .quiet (.raiseD (.lock (.setRx .refl _ _) _) _)

theorem lineFallsIdle (segment : Fin 8) : FollowedBy s (.lineFallsIdle segment) := by
  refine ⟨_, rfl, .quiet (.seg (.setRx .refl _ _) _ _ (Seg.inRange_of fun r => { r with quietLeft := ?_ }))⟩
  intro d hd
  dsimp only at hd
  split at hd
  · cases hd
    exact Nat.mul_le_mul_right 10 r.quiet.2
  · exact r.quietLeft d hd

theorem rxLineActive (segment : Fin 8) : FollowedBy s (.rxLineActive segment) :=
  ⟨_, rfl, .quiet (.seg (.setRx .refl _ _) _ _ (Seg.inRange_of fun r => { r with
    quietLeft := fun _ hd => by cases hd }))⟩

theorem quietExpiry (segment : Fin 8) : FollowedBy s (.quietExpiry segment) := by
  refine ⟨_, rfl, ?_⟩
  split
  · exact .quiet (.unlock (.elapse .refl _) _ _)
  · exact .quiet .refl

/-! ### Sensors and the stow line -/

theorem shadowSensorChange (sensor : Fin 8) (level : Bool) : FollowedBy s (.shadowSensorChange sensor level) :=
  ⟨_, rfl, .sampleSensor (.setShd .refl _ _) _ _⟩

theorem shadowOnset (sensor : Fin 8) : FollowedBy s (.shadowOnset sensor) := by
  refine ⟨_, rfl, ?_⟩
  split
  · exact .sampleSensor (.setShd (.elapseTo .refl _) _ _) _ _
  · exact .quiet .refl

theorem shadowEnd (sensor : Fin 8) : FollowedBy s (.shadowEnd sensor) := by
  refine ⟨_, rfl, ?_⟩
  split
  · exact .quiet .refl
  · exact .sampleSensor (.setShd (.elapseTo .refl _) _ _) _ _

theorem sensorStuck (sensor : Fin 8) : FollowedBy s (.sensorStuck sensor) := by
  refine ⟨_, rfl, ?_⟩
  split
  · exact .reshade (.markStuck (.elapse .refl _) _) _
  · exact .quiet .refl

theorem deadlineExpiry : FollowedBy s .deadlineExpiry := by
  refine ⟨_, rfl, ?_⟩
  split
  · exact .deadlineEnd (.elapse .refl _)
  · exact .quiet .refl

theorem supervisionExpired : FollowedBy s .supervisionExpired := by
  refine ⟨_, rfl, ?_⟩
  split
  · exact .supervisionEnd (.elapse .refl _)
  · exact .quiet .refl

end FollowedBy

/-- Every command but pin reset acts, as a chain of writes that FIELD_CLEAR follows. -/
theorem exec_followedBy (s : State) (c : Instr) (hc : c ≠ .pinReset) : FollowedBy s c := by
  cases c with
  | writeHeliostat index segment drop x y z area refl => exact .writeHeliostat s index segment drop x y z area refl
  | assign index point => exact .assign s index point
  | park index => exact .park s index
  | exclude index => exact .exclude s index
  | includeHel index => exact .includeHel s index
  | clearFault index => exact .clearFault s index
  | releaseStranded index => exact .releaseStranded s index
  | retire index => exact .retire s index
  | readHeliostat first => exact .deliverRead s _
  | writeAimpoint point valid x y z zone alternate => exact .writeAimpoint s point valid x y z zone alternate
  | setZone zone limit standby => exact .setZone s zone limit standby
  | readZone port first => exact .deliverRead s _
  | readJoinList zone => exact .deliverObject s _ _
  | readQueue zone => exact .deliverObject s _ _
  | setSun sx sy sz dni atc => exact .setSun s sx sy sz dni atc
  | setEpoch period => exact .setEpoch s period
  | epochNow => exact .epochNow s
  | setStagger stepMs dmax seed => exact .setStagger s stepMs dmax seed
  | setLink segment enable rate timeout quiet missLimit devLimit ptol =>
    exact .setLink s segment enable rate timeout quiet missLimit devLimit ptol
  | restartSegment segment => exact .restartSegment s segment
  | postMaint segment index action ops => exact .postMaint s segment index action ops
  | readSegment first => exact .deliverRead s _
  | readMaint segment => exact .deliverRead s _
  | setShade maps shf qual shadeMax depths => exact .setShade s maps shf qual shadeMax depths
  | readCapture sensor => exact .readCapture s sensor
  | stow => exact ⟨_, rfl, .deliverWith fun _ => .setStowCommand .refl _⟩
  | unstow => exact ⟨_, rfl, .deliverWith fun _ => .setStowCommand .refl _⟩
  | setForm form => exact .setForm s form
  | readStatus port => exact .deliverObject s _ _
  | setMask port events => exact .setMask s port events
  | ackEvents port events => exact .ackEvents s port events
  | setProtectLimit zone limit => exact .setProtectLimit s zone limit
  | hold zone => exact .hold s zone
  | unhold zone => exact .unhold s zone
  | setRamp zone value => exact .setRamp s zone value
  | fieldDefocus => exact .fieldDefocus s
  | fieldRelease => exact .fieldRelease s
  | setDeadline value => exact .setDeadline s value
  | supervise period => exact .supervise s period
  | unknownCommand port code => exact .unknownCommand s port code
  | transactionDiscard port => exact ⟨_, rfl, FollowedBy.selectRise s port⟩
  | readObjectFix port => exact ⟨_, rfl, FollowedBy.fixObject s port⟩
  | pinReset => exact absurd rfl hc
  | epochExpiry => exact .epochExpiry s
  | sweepVisit => exact .sweepVisit s
  | sweepComplete first => exact .sweepComplete s first
  | solve => exact .solve s
  | solveBegun => exact .solveBegun s
  | releaseTimerExpiry segment => exact .releaseTimerExpiry s segment
  | nextItemTaken segment => exact .nextItemTaken s segment
  | frameSent segment => exact .frameSent s segment
  | receptionComplete segment bytes => exact .receptionComplete s segment bytes
  | receptionBroken segment => exact .receptionBroken s segment
  | replyTimeout segment => exact .replyTimeout s segment
  | segmentLocked segment => exact .segmentLocked s segment
  | quietExpiry segment => exact .quietExpiry s segment
  | shadowSensorChange sensor level => exact .shadowSensorChange s sensor level
  | shadowOnset sensor => exact .shadowOnset s sensor
  | shadowEnd sensor => exact .shadowEnd s sensor
  | sensorStuck sensor => exact .sensorStuck s sensor
  | stowLineChange level => exact ⟨_, rfl, .sampleLine .refl level⟩
  | stowLineQualified => exact ⟨_, rfl, .sampleLine (.elapseTo .refl _) _⟩
  | deadlineExpiry => exact .deadlineExpiry s
  | supervisionExpired => exact .supervisionExpired s
  | receptionBegins segment marker us => exact .receptionBegins s segment marker us
  | lineFallsIdle segment => exact .lineFallsIdle s segment
  | rxLineActive segment => exact .rxLineActive s segment
  | transactionBegin port => exact ⟨_, rfl, FollowedBy.selectFall s port⟩
  | transactionEnd port => exact ⟨_, rfl, FollowedBy.selectRise s port⟩

end Sys2Proof.Machine
end

section
/-! PROOFS. Every step keeps the ranges, the protection settings and FIELD_CLEAR (O56 to O60). -/

-- One proof after another: begun all at once, the proofs of the whole text outgrow the check's memory.
set_option Elab.async false

namespace Sys2Proof.Machine

/-! ### Steps -/

theorem step_of_pending_cons {s : State} {c : Instr} {rest : List Instr} (h : s.pending = c :: rest) :
    step s = exec c { s with pending := rest } := by
  unfold step
  rw [h]

theorem step_of_pending_nil {s : State} (h : s.pending = []) : step s = .next s.tick := by
  unfold step
  rw [h]

/-- A step but pin reset is a chain of writes that FIELD_CLEAR follows; it writes a protection setting where its command
does. -/
theorem step_followed {s t : State} (h : step s = .next t) (hc : s.pending.head? ≠ some .pinReset) :
    Followed (s.pending.head?.elim false setsProtection) (s.pending.head?.elim true leavesBooks) s t := by
  cases hp : s.pending with
  | nil =>
    rw [step_of_pending_nil hp] at h
    cases h
    exact .quiet (.tick .refl)
  | cons c rest =>
    obtain ⟨t', ht', hf⟩ := exec_followedBy { s with pending := rest } c (by rintro rfl; simp [hp] at hc)
    rw [step_of_pending_cons hp, ht'] at h
    cases h
    exact .pre (.units .refl {}) hf

namespace Followed
variable {p r : Bool} {s t : State}

/-- A command of either kind, read as one that may write anything. -/
theorem anyKind (h : Followed p r s t) : Followed true false s t := by
  have hany {q : Bool} {u v : State} (hw : Writes p q false u v) : Writes true q false u v := by
    cases p with
    | true => exact hw
    | false => exact hw.anyPort
  cases h with
  | quiet hq => exact .quiet (hany hq.unplain)
  | refreshed _ u before after kept => exact .refreshed rfl u (hany before) (hany after) kept

/-- What writes keep and the re-derivation of FIELD_CLEAR keeps, a command keeps. -/
theorem keeps {P : State → Prop} (hw : ∀ u v q, Writes p q false u v → P u → P v)
    (hr : ∀ u : State, P u → P u.refreshClear) (h : Followed p r s t) (hs : P s) : P t := by
  cases h with
  | quiet hq => exact hw _ _ _ hq.unplain hs
  | refreshed _ u before after => exact hw _ _ _ after (hr u (hw _ _ _ before hs))

end Followed

/-- A step is a pin reset of the state with the queue's rest, or a chain of writes. -/
theorem step_reset_or_followed {s t : State} (h : step s = .next t) :
    (∃ rest, s.pending = .pinReset :: rest ∧ execPinReset { s with pending := rest } = .next t)
      ∨ Followed true false s t := by
  by_cases hc : s.pending.head? = some .pinReset
  · obtain ⟨rest, hrest⟩ := List.head?_eq_some_iff.1 hc
    rw [step_of_pending_cons hrest] at h
    exact .inl ⟨rest, hrest, h⟩
  · exact .inr (step_followed h hc).anyKind

theorem State.refreshClear_clearOk (s : State) : s.refreshClear.clearOk := by
  have hfigures : s.refreshClear.fieldIsClear = s.fieldIsClear :=
    State.fieldIsClear_of_figures fun z => by rw [State.refreshClear_zone]
  rw [State.clearOk, hfigures, State.refreshClear_pau]

theorem State.refreshClear_unitsOk {s : State} (h : s.unitsOk) : s.refreshClear.unitsOk := by
  refine State.unitsOk_of (s := s) (fun r => ?_) h
  refine { link := ?_, sun := ?_, snapshot := ?_, epoch := ?_, rsg := ?_, scu := ?_, pau := ?_, sweep := ?_,
           lastServed := ?_, timers := ?_ }
  all_goals simp only [State.refreshClear_link, State.refreshClear_sun, State.refreshClear_snapshot,
    State.refreshClear_epoch, State.refreshClear_rsg, State.refreshClear_scu, State.refreshClear_pau,
    State.refreshClear_sweep, State.refreshClear_lastServed, State.refreshClear_timer]
  exacts [r.link, r.sun, r.snapshot, r.epoch, r.rsg, r.scu, r.pau, r.sweep, r.lastServed, r.timers]

theorem State.refreshClear_blocksOk {s : State} (h : s.blocksOk) : s.refreshClear.blocksOk := by
  rw [State.blocksOk_iff] at h ⊢
  simpa only [State.refreshClear_zone, State.refreshClear_seg, State.refreshClear_channel] using h

theorem State.refreshClear_recordsOk {s : State} (h : s.recordsOk) : s.refreshClear.recordsOk := by
  rw [State.recordsOk_iff, State.sunOk] at h ⊢
  simpa only [State.refreshClear_hel, State.refreshClear_sun, State.refreshClear_snapshot] using h

theorem State.refreshClear_tablesOk {s : State} (h : s.tablesOk = true) : s.refreshClear.tablesOk = true := by
  unfold State.tablesOk at h ⊢
  simpa only [State.refreshClear_hels, State.refreshClear_points, State.refreshClear_zones, State.refreshClear_segs,
    State.refreshClear_rsg, State.refreshClear_scu] using h

theorem State.refreshClear_protectionSettings (s : State) (z : Nat) :
    s.refreshClear.protectionSettings z = s.protectionSettings z := by
  unfold State.protectionSettings
  rw [State.refreshClear_zone, State.refreshClear_pau]

/-! ### Reset and pin reset -/

theorem State.reset_unitsOk : State.reset.unitsOk := by
  refine (State.unitsOk_iff _).2
    { link := ⟨by decide, by decide, by decide⟩, sun := by decide, snapshot := fun u hu => (by cases hu)
      epoch := ⟨fun hr => (by cases hr), by decide, fun _ hp => (by cases hp), by decide⟩
      rsg := by decide, scu := by decide
      pau := ⟨by decide, by decide, fun _ hd => (by cases hd), fun _ hd => by cases hd⟩
      sweep := by decide, lastServed := by decide, timers := fun k d hd => by cases hd }

theorem Zone.reset_inRange : Zone.reset.inRange := ⟨by decide, by decide, by decide⟩

theorem Channel.reset_inRange : Channel.reset.inRange := ⟨by decide, by decide, by decide⟩

theorem Seg.reset_inRange : Seg.reset.inRange :=
  Seg.inRange_iff.2
    { timeout := by decide, quiet := by decide, head := by decide, count := by decide, invertedRun := by decide
      errorRun := by decide, answered := by decide, missed := by decide, crcErrors := by decide
      quietLeft := fun _ hd => (by cases hd), frame := fun _ hf => by cases hf }

theorem State.reset_recordsOk : State.reset.recordsOk :=
  ⟨fun _ => Hel.empty_inRange, by decide, fun _ hu => by cases hu⟩

theorem State.reset_clearOk : State.reset.clearOk := by
  unfold State.clearOk
  decide

section
variable {s t : State} (h : execPinReset s = .next t)
include h

/-- What pin reset leaves, its segments apart. -/
theorem eq_of_pinReset : ∃ segs, t = { State.reset with segs := segs, pins := s.pins, pending := s.pending, draws := s.draws }
    ∧ segs = Tab.update Seg.reset (fun k g => { g with cut := (s.seg k).cutOff }) (List.range 8) State.reset.segs :=
  ⟨_, (Host.Outcome.next.inj h).symm, rfl⟩

theorem unitsOk_pinReset : t.unitsOk := by
  obtain ⟨segs, rfl, -⟩ := eq_of_pinReset h
  exact State.reset_unitsOk

theorem recordsOk_pinReset : t.recordsOk := by
  obtain ⟨segs, rfl, -⟩ := eq_of_pinReset h
  exact State.reset_recordsOk

theorem clearOk_pinReset : t.clearOk := by
  obtain ⟨segs, rfl, -⟩ := eq_of_pinReset h
  exact State.reset_clearOk

theorem blocksOk_pinReset : t.blocksOk := by
  have hzone z : t.zone z = Zone.reset := by obtain ⟨segs, rfl, -⟩ := eq_of_pinReset h; rfl
  have hchannel k : t.channel k = Channel.reset := by obtain ⟨segs, rfl, -⟩ := eq_of_pinReset h; rfl
  refine (State.blocksOk_iff t).2 ⟨fun z => ?_, fun k => ?_, fun k => ?_⟩
  · rw [hzone]; exact Zone.reset_inRange
  · rw [State.seg_pinReset h]; exact Seg.reset_inRange
  · rw [hchannel]; exact Channel.reset_inRange

theorem tablesOk_pinReset : t.tablesOk = true := by
  have hsegs : Tab.wf Seg.reset t.segs = true := by
    obtain ⟨segs, rfl, hsegs⟩ := eq_of_pinReset h
    change Tab.wf Seg.reset segs = true
    rw [hsegs]
    exact Tab.wf_update _ _ rfl
  have hslots : ∀ e ∈ t.segs, Tab.wf Slot.reset e.2.slots = true := fun e he => by
    have hget : t.seg e.1 = e.2 := Tab.get_of_mem hsegs he
    rw [← hget, State.seg_pinReset h]
    rfl
  rw [State.tablesOk_iff]
  refine ⟨?_, ?_, ?_, hsegs, hslots, ?_, ?_, ?_⟩ <;> (obtain ⟨segs, rfl, -⟩ := eq_of_pinReset h; rfl)

end

/-! ### What every step keeps -/

/-- What writes, the re-derivation of FIELD_CLEAR and pin reset keep, every step keeps. -/
theorem step_keeps {P : State → Prop} (hw : ∀ u v q, Writes true q false u v → P u → P v)
    (hr : ∀ u : State, P u → P u.refreshClear) (hreset : ∀ u v : State, execPinReset u = .next v → P v) {s t : State}
    (hs : P s) (h : step s = .next t) : P t := by
  rcases step_reset_or_followed h with ⟨rest, -, hreset'⟩ | hf
  · exact hreset _ _ hreset'
  · exact hf.keeps hw hr hs

theorem step_tablesOk {s t : State} (hs : s.tablesOk = true) (h : step s = .next t) : t.tablesOk = true :=
  step_keeps (P := fun u => u.tablesOk = true) (fun _ _ _ => Writes.tablesOk) (fun _ => State.refreshClear_tablesOk)
    (fun _ _ => tablesOk_pinReset) hs h

/-- Settles O58: each write keeps the ranges, and every step is a chain of writes or a pin reset. -/
theorem settingsStayInRange : Obligations.SettingsStayInRange := by
  unfold Obligations.SettingsStayInRange
  intro s t hunits hblocks h
  exact ⟨step_keeps (fun _ _ _ => Writes.unitsOk) (fun _ => State.refreshClear_unitsOk) (fun _ _ => unitsOk_pinReset) hunits h,
    step_keeps (fun _ _ _ => Writes.blocksOk) (fun _ => State.refreshClear_blocksOk) (fun _ _ => blocksOk_pinReset) hblocks h⟩

/-- Settles O59: each write keeps the ranges of the records, and every step is a chain of writes or a pin reset. -/
theorem recordsStayInRange : Obligations.RecordsStayInRange := by
  unfold Obligations.RecordsStayInRange
  intro s t hs h
  exact step_keeps (fun _ _ _ => Writes.recordsOk) (fun _ => State.refreshClear_recordsOk) (fun _ _ => recordsOk_pinReset) hs h

/-- The commands that write a protection setting are the protection port's. -/
theorem wire_of_setsProtection {c : Instr} (h : setsProtection c = true) :
    ∃ w, wire c = some w ∧ w.port = .protection := by
  cases c with
  | setProtectLimit | hold | unhold | setRamp | setDeadline | supervise => exact ⟨_, rfl, rfl⟩
  | _ => cases h

/-- Settles O60: a write of a command that is not the protection port's leaves the protection settings. -/
theorem protectionSettingsIsolated : Obligations.ProtectionSettingsIsolated := by
  unfold Obligations.ProtectionSettingsIsolated
  intro s t z h hport
  have hf := step_followed h fun hc => (hport _ hc).1 rfl
  have hsets : s.pending.head?.elim false setsProtection = false := by
    cases hc : s.pending.head? with
    | none => rfl
    | some c =>
      by_contra hsets
      obtain ⟨w, hw, hprotection⟩ := wire_of_setsProtection (Bool.eq_true_of_not_eq_false hsets)
      rw [(hport c hc).2 w hw] at hprotection
      cases hprotection
  rw [hsets] at hf
  exact hf.keeps (P := fun u => u.protectionSettings z = s.protectionSettings z)
    (fun _ _ _ hw hu => (hw.protectionSettings z).trans hu)
    (fun u hu => (u.refreshClear_protectionSettings z).trans hu) rfl

/-! ### FIELD_CLEAR -/

/-- A step but pin reset leaves FIELD_CLEAR and its condition, or re-derives it. -/
theorem Followed.clearOk {p r : Bool} {s t : State} (h : Followed p r s t) (hs : s.clearOk) : t.clearOk := by
  cases h with
  | quiet hq => rw [State.clearOk, hq.fieldClear, hq.fieldIsClear]; exact hs
  | refreshed plain u before after => rw [State.clearOk, after.fieldClear, after.fieldIsClear]; exact u.refreshClear_clearOk

theorem step_clearOk {s t : State} (hs : s.clearOk) (h : step s = .next t) : t.clearOk := by
  rcases step_reset_or_followed h with ⟨rest, -, hreset⟩ | hf
  · exact clearOk_pinReset hreset
  · exact hf.clearOk hs

/-- Settles O57: a rise comes with a re-derivation of FIELD_CLEAR, which raises the event, and no later write of the same
step takes it back. -/
theorem riseRaisesComplete : Obligations.RiseRaisesComplete := by
  unfold Obligations.RiseRaisesComplete
  intro s t h hc hlow hhigh
  cases step_followed h hc with
  | quiet hq => rw [hq.fieldClear, hlow] at hhigh; cases hhigh
  | refreshed plain u before after kept =>
    refine kept ?_
    rw [after.fieldClear, State.refreshClear_pau] at hhigh
    have hlow' : u.pau.fieldClear = false := before.fieldClear.trans hlow
    dsimp only at hhigh
    unfold State.refreshClear
    simp only [hhigh, hlow', Bool.not_false, Bool.and_self, if_true]
    exact State.pPending_raiseP _ _

/-- A record's figure is part of the tally. -/
theorem State.le_tally (s : State) {f : Hel → Nat} (hf : f Hel.empty = 0) (i : Nat) : f (s.hel i) ≤ s.tally f := by
  unfold State.hel State.tally
  induction s.hels with
  | nil => simp [Tab.get, hf]
  | cons e t ih =>
    rw [Tab.get, List.map_cons, List.sum_cons]
    split <;> omega

/-- A tally of a figure that is 0 in every record is 0. -/
theorem State.tally_eq_zero {s : State} (hs : Tab.wf Hel.empty s.hels = true) {f : Hel → Nat}
    (hf : ∀ i, f (s.hel i) = 0) : s.tally f = 0 := by
  refine List.sum_eq_zero fun n hn => ?_
  obtain ⟨e, he, rfl⟩ := List.mem_map.1 hn
  rw [← Tab.get_of_mem hs he]
  exact hf e.1

/-- FIELD_CLEAR's condition, zone by zone. -/
theorem State.fieldIsClear_iff (s : State) : s.fieldIsClear = true ↔
    ∀ z < 12, (s.zone z).joinList = [] ∧ (s.zone z).pendingDepartures = 0 ∧ (s.zone z).stranded = 0 := by
  simp only [State.fieldIsClear, State.onTargetCount, State.departingCount, State.strandedTotal, Bool.and_eq_true,
    beq_iff_eq, List.sum_eq_zero_iff, List.mem_map, List.mem_range]
  constructor
  · rintro ⟨⟨hjoin, hpending⟩, hstranded⟩ z hz
    exact ⟨List.length_eq_zero_iff.1 (hjoin _ ⟨z, hz, rfl⟩), hpending _ ⟨z, hz, rfl⟩, hstranded _ ⟨z, hz, rfl⟩⟩
  · intro h
    refine ⟨⟨?_, ?_⟩, ?_⟩ <;> rintro n ⟨z, hz, rfl⟩
    · rw [(h z hz).1]; rfl
    · exact (h z hz).2.1
    · exact (h z hz).2.2

/-- The zone of an aimed heliostat is one of the twelve (R48). -/
theorem State.joinZone_lt {s : State} (hp : ∀ p, s.pointBooked p) (h : Hel) : s.joinZone h < 12 := by
  unfold State.joinZone
  split
  · exact (hp _).1
  · decide

/-- With right books FIELD_CLEAR's condition is one of the records. -/
theorem State.fieldIsClear_iff_records {s : State} (hs : s.booksOk) : s.fieldIsClear = true ↔
    ∀ i, (s.hel i).state ≠ .onTarget ∧ (s.hel i).departing = false
      ∧ ∀ st, (s.hel i).stranded = some st → st.amount = 0 := by
  obtain ⟨htables, hrecords, hpoints, hzones, -, -⟩ := hs
  have hhels := ((State.tablesOk_iff s).1 htables).1
  rw [State.fieldIsClear_iff]
  constructor
  · intro h i
    obtain ⟨-, -, -, -, -, hdeparting, -, hdepartureZone, hstrandedZone, -⟩ := hrecords i
    refine ⟨fun hon => ?_, ?_, fun st hst => ?_⟩
    · obtain ⟨-, -, hjoin, -⟩ := hzones (s.joinZone (s.hel i))
      have hmem := (hjoin i).2 ⟨hon, rfl⟩
      rw [(h _ (State.joinZone_lt hpoints _)).1] at hmem
      cases hmem
    · rw [hdeparting]
      cases hz : (s.hel i).departureZone with
      | none => rfl
      | some z =>
        obtain ⟨-, -, -, -, hpending, -⟩ := hzones z
        have hle := s.le_tally (f := fun h => one (h.departureZone == some z)) rfl i
        rw [← hpending, (h z (hdepartureZone z hz)).2.1] at hle
        simp [hz, one] at hle
    · obtain ⟨-, -, -, -, -, hstranded⟩ := hzones st.zone
      have hle := s.le_tally (f := Hel.strandedIn st.zone) rfl i
      rw [← hstranded, (h _ (hstrandedZone st hst)).2.2] at hle
      simpa [Hel.strandedIn, hst] using hle
  · intro h z _
    obtain ⟨-, -, hjoin, -, hpending, hstranded⟩ := hzones z
    refine ⟨List.eq_nil_iff_forall_not_mem.2 fun i hi => (h i).1 ((hjoin i).1 hi).1, ?_, ?_⟩
    · rw [hpending]
      refine State.tally_eq_zero hhels fun i => ?_
      obtain ⟨-, -, -, -, -, hdeparting, -⟩ := hrecords i
      have hnone : (s.hel i).departureZone = none := by
        have := hdeparting.symm.trans (h i).2.1
        simpa using this
      simp [hnone, one]
    · rw [hstranded]
      refine State.tally_eq_zero hhels fun i => ?_
      unfold Hel.strandedIn
      split
      next st hst =>
        rw [(h i).2.2 st hst]
        exact ite_self 0
      · rfl

/-- Settles O56: every step leaves FIELD_CLEAR's three figures, or re-derives it at its end; with right books the figures
are the records'. -/
theorem fieldClearStaysTrue : Obligations.FieldClearStaysTrue := by
  unfold Obligations.FieldClearStaysTrue
  refine ⟨fun s t hs h => step_clearOk hs h, fun s hs hbooks => ?_⟩
  rw [hs]
  exact State.fieldIsClear_iff_records hbooks

end Sys2Proof.Machine
end

section
/-! PROOFS. The books of the field through one move of one heliostat: the records, points and zones agree after it where
the points' counts and the zones' collections follow the record. -/

-- One proof after another: begun all at once, the proofs of the whole text outgrow the check's memory.
set_option Elab.async false

namespace Sys2Proof.Machine

/-! ### The books, part by part -/

/-- `State.recordBooked`, item by item, with `b` for "stow is in effect". -/
structure RecordBooks (b : Bool) (s : State) (h : Hel) : Prop where
  absent : h.state = .absent → h.assignment = none ∧ h.departing = false ∧ h.stranded = none
  assigned : h.state = .onTarget ∨ h.state = .queued → h.assignment.isSome
  aimed : h.state = .onTarget → h.departing = false
  alternate : h.onAlternate = true → h.state = .onTarget ∧ (s.alternateOf h).isSome
  stranded : h.stranded.isSome → h.state = .offline ∨ h.state = .faulted
  departing : h.departing = h.departureZone.isSome
  point : ∀ p, h.assignment = some p → p ≤ 95
  departureZone : ∀ z, h.departureZone = some z → z < 12
  strandedZone : ∀ st, h.stranded = some st → st.zone < 12
  stow : b = true → h.state ≠ .onTarget ∧ h.state ≠ .queued ∧ h.state ≠ .standby

theorem State.recordBooked_iff (s : State) (h : Hel) : s.recordBooked h ↔ RecordBooks s.stowInEffect s h :=
  ⟨fun ⟨h1, h2, h3, h4, h5, h6, h7, h8, h9, h10⟩ => ⟨h1, h2, h3, h4, h5, h6, h7, h8, h9, h10⟩,
    fun ⟨h1, h2, h3, h4, h5, h6, h7, h8, h9, h10⟩ => ⟨h1, h2, h3, h4, h5, h6, h7, h8, h9, h10⟩⟩

/-- `State.pointBooked`, item by item. -/
structure PointBooks (s : State) (p : Nat) : Prop where
  zone : (s.point p).zone < 12
  alternate : ∀ q, (s.point p).alternate = some q → q ≤ 95
  invalid : (s.point p).valid = false → (s.point p).inUse = 0 ∧ (s.point p).altLoad = 0
  inUse : (s.point p).inUse = s.tally (fun h => one (h.assignment == some p))
  diverted : (s.point p).diverted = s.tally (fun h => one (h.onAlternate && h.assignment == some p))
  altLoad : (s.point p).altLoad = s.tally (fun h => one (h.onAlternate && s.alternateOf h == some p))

theorem State.pointBooked_iff (s : State) (p : Nat) : s.pointBooked p ↔ PointBooks s p :=
  ⟨fun ⟨h1, h2, h3, h4, h5, h6⟩ => ⟨h1, h2, h3, h4, h5, h6⟩, fun ⟨h1, h2, h3, h4, h5, h6⟩ => ⟨h1, h2, h3, h4, h5, h6⟩⟩

/-- `State.zoneBooked`, item by item. -/
structure ZoneBooks (s : State) (z : Nat) : Prop where
  joinNodup : (s.zone z).joinList.Nodup
  queueNodup : (s.zone z).queue.Nodup
  join : ∀ i, i ∈ (s.zone z).joinList ↔ (s.hel i).state = .onTarget ∧ s.joinZone (s.hel i) = z
  queue : ∀ i, i ∈ (s.zone z).queue ↔ (s.hel i).state = .queued ∧ s.assignedZone (s.hel i) = z
  pending : (s.zone z).pendingDepartures = s.tally (fun h => one (h.departureZone == some z))
  stranded : (s.zone z).stranded = s.tally (Hel.strandedIn z)

theorem State.zoneBooked_iff (s : State) (z : Nat) : s.zoneBooked z ↔ ZoneBooks s z :=
  ⟨fun ⟨h1, h2, h3, h4, h5, h6⟩ => ⟨h1, h2, h3, h4, h5, h6⟩, fun ⟨h1, h2, h3, h4, h5, h6⟩ => ⟨h1, h2, h3, h4, h5, h6⟩⟩

/-- The books of the field, with `b` for "stow is in effect". -/
structure Books (b : Bool) (s : State) : Prop where
  tables : s.tablesOk = true
  record : ∀ i, RecordBooks b s (s.hel i)
  point : ∀ p, PointBooks s p
  zone : ∀ z, ZoneBooks s z
  index : ∀ i, (s.hel i).state ≠ .absent → i ≤ 1999
  late : s.pau.lateCount ≤ 2000

theorem State.booksOk_iff (s : State) : s.booksOk ↔ Books s.stowInEffect s := by
  constructor
  · rintro ⟨htables, hrecord, hpoint, hzone, hindex, hlate⟩
    exact ⟨htables, fun i => (s.recordBooked_iff _).1 (hrecord i), fun p => (s.pointBooked_iff p).1 (hpoint p),
      fun z => (s.zoneBooked_iff z).1 (hzone z), hindex, hlate⟩
  · rintro ⟨htables, hrecord, hpoint, hzone, hindex, hlate⟩
    exact ⟨htables, fun i => (s.recordBooked_iff _).2 (hrecord i), fun p => (s.pointBooked_iff p).2 (hpoint p),
      fun z => (s.zoneBooked_iff z).2 (hzone z), hindex, hlate⟩

/-! ### One move of one heliostat -/

/-- What a point says of itself. -/
def Point.place (a : Point) : Nat × Option Nat × Bool := (a.zone, a.alternate, a.valid)

/-! Where every point keeps its place, records name the same alternates and zones. -/

section
variable {s t : State} (h : ∀ p, (t.point p).place = (s.point p).place)
include h

theorem pointZone_of_place (p : Nat) : (t.point p).zone = (s.point p).zone := congrArg (·.1) (h p)

theorem pointAlternate_of_place (p : Nat) : (t.point p).alternate = (s.point p).alternate := congrArg (·.2.1) (h p)

theorem pointValid_of_place (p : Nat) : (t.point p).valid = (s.point p).valid := congrArg (·.2.2) (h p)

theorem alternateOf_of_place (g : Hel) : t.alternateOf g = s.alternateOf g := by
  simp only [State.alternateOf, pointAlternate_of_place h]

theorem aimedPoint_of_place (g : Hel) : t.aimedPoint g = s.aimedPoint g := by
  simp only [State.aimedPoint, alternateOf_of_place h]

theorem joinZone_of_place (g : Hel) : t.joinZone g = s.joinZone g := by
  simp only [State.joinZone, aimedPoint_of_place h, pointZone_of_place h]

theorem assignedZone_of_place (g : Hel) : t.assignedZone g = s.assignedZone g := by
  simp only [State.assignedZone, pointZone_of_place h]

end

theorem RecordBooks.of_place {b : Bool} {s t : State} (h : ∀ p, (t.point p).place = (s.point p).place) {g : Hel}
    (hg : RecordBooks b s g) : RecordBooks b t g :=
  { hg with alternate := by rw [alternateOf_of_place h]; exact hg.alternate }

/-- The points follow a record that changes from `g` to `g'` (R23, R51). -/
structure PointsFollow (s t : State) (g g' : Hel) : Prop where
  place : ∀ p, (t.point p).place = (s.point p).place
  inUse : ∀ p, (t.point p).inUse + one (g.assignment == some p) = (s.point p).inUse + one (g'.assignment == some p)
  diverted : ∀ p, (t.point p).diverted + one (g.onAlternate && g.assignment == some p)
    = (s.point p).diverted + one (g'.onAlternate && g'.assignment == some p)
  altLoad : ∀ p, (t.point p).altLoad + one (g.onAlternate && s.alternateOf g == some p)
    = (s.point p).altLoad + one (g'.onAlternate && s.alternateOf g' == some p)
  assigned : ∀ p, g'.assignment = some p → g.assignment = some p ∨ (s.point p).valid = true
  diverts : ∀ p, g'.onAlternate = true → s.alternateOf g' = some p →
    (g.onAlternate = true ∧ s.alternateOf g = some p) ∨ (s.point p).valid = true

/-- The zones follow record `i` that changes from `g` to `g'` (R60, R61, R65). -/
structure ZonesFollow (s t : State) (i : Nat) (g g' : Hel) : Prop where
  joinNodup : ∀ z, (t.zone z).joinList.Nodup
  queueNodup : ∀ z, (t.zone z).queue.Nodup
  join : ∀ z j, j ∈ (t.zone z).joinList ↔
    if j = i then g'.state = .onTarget ∧ s.joinZone g' = z else j ∈ (s.zone z).joinList
  queue : ∀ z j, j ∈ (t.zone z).queue ↔
    if j = i then g'.state = .queued ∧ s.assignedZone g' = z else j ∈ (s.zone z).queue
  pending : ∀ z, (t.zone z).pendingDepartures + one (g.departureZone == some z)
    = (s.zone z).pendingDepartures + one (g'.departureZone == some z)
  stranded : ∀ z, (t.zone z).stranded + g.strandedIn z = (s.zone z).stranded + g'.strandedIn z

section
variable {b : Bool} {s t : State} {i : Nat} {g' : Hel}

/-- A tally after record `i` became `g'`. -/
theorem State.tally_of_hel (hs : Tab.wf Hel.empty s.hels = true) (ht : Tab.wf Hel.empty t.hels = true)
    (hhel : ∀ j, t.hel j = if j = i then g' else s.hel j) (f : Hel → Nat) (hf : f Hel.empty = 0) :
    t.tally f + f (s.hel i) = s.tally f + f g' := by
  have heq : t.hels = (s.modHel i fun _ => g').hels :=
    Tab.ext_get ht (Tab.wf_put hs _ _) fun j => (hhel j).trans (s.hel_modHel i j fun _ => g').symm
  rw [State.tally_congr heq]
  exact State.tally_modHel hs f hf i _

theorem Books.hels (h : Books b s) : Tab.wf Hel.empty s.hels = true := ((State.tablesOk_iff s).1 h.tables).1

/-- The books stay right where points and zones follow the record that changed. -/
theorem Books.moved (h : Books b s) (tables : t.tablesOk = true) (hel : ∀ j, t.hel j = if j = i then g' else s.hel j)
    (points : PointsFollow s t (s.hel i) g') (zones : ZonesFollow s t i (s.hel i) g') (record : RecordBooks b s g')
    (index : g'.state ≠ .absent → i ≤ 1999) (late : t.pau.lateCount = s.pau.lateCount) : Books b t := by
  have htally := State.tally_of_hel h.hels ((State.tablesOk_iff t).1 tables).1 hel
  have hplace := points.place
  refine ⟨tables, fun j => ?_, fun p => ?_, fun z => ?_, fun j => ?_, late ▸ h.late⟩
  · rw [hel]
    split
    · exact record.of_place hplace
    · exact (h.record j).of_place hplace
  · have hold := h.point p
    have hinUse := points.inUse p
    have hdiverted := points.diverted p
    have haltLoad := points.altLoad p
    have ht1 := htally (fun h => one (h.assignment == some p)) rfl
    have ht2 := htally (fun h => one (h.onAlternate && h.assignment == some p)) rfl
    have ht3 := htally (fun h => one (h.onAlternate && s.alternateOf h == some p)) rfl
    refine ⟨?_, ?_, fun hv => ?_, ?_, ?_, ?_⟩
    · rw [pointZone_of_place hplace]; exact hold.zone
    · rw [pointAlternate_of_place hplace]; exact hold.alternate
    · rw [pointValid_of_place hplace] at hv
      obtain ⟨huse0, hload0⟩ := hold.invalid hv
      have huse : one (g'.assignment == some p) ≤ one ((s.hel i).assignment == some p) := by
        by_cases hg : g'.assignment = some p
        · rcases points.assigned p hg with hg0 | hvalid
          · rw [hg, hg0]
          · rw [hv] at hvalid; cases hvalid
        · simp [hg, one]
      have hload : one (g'.onAlternate && s.alternateOf g' == some p)
          ≤ one ((s.hel i).onAlternate && s.alternateOf (s.hel i) == some p) := by
        by_cases hg : g'.onAlternate = true ∧ s.alternateOf g' = some p
        · rcases points.diverts p hg.1 hg.2 with ⟨hon, hg0⟩ | hvalid
          · rw [hg.1, hg.2, hon, hg0]
          · rw [hv] at hvalid; cases hvalid
        · have hfalse : (g'.onAlternate && s.alternateOf g' == some p) = false := by
            simpa [Bool.and_eq_true, beq_iff_eq] using hg
          rw [hfalse]
          exact Nat.zero_le _
      omega
    · have := hold.inUse; omega
    · have := hold.diverted; omega
    · have := hold.altLoad
      simp only [alternateOf_of_place hplace]
      omega
  · have hold := h.zone z
    have hpending := zones.pending z
    have hstranded := zones.stranded z
    have ht1 := htally (fun h => one (h.departureZone == some z)) rfl
    have ht2 := htally (Hel.strandedIn z) rfl
    refine ⟨zones.joinNodup z, zones.queueNodup z, fun j => ?_, fun j => ?_, ?_, ?_⟩
    · rw [zones.join, hel, joinZone_of_place hplace]
      split
      · rfl
      · exact hold.join j
    · rw [zones.queue, hel, assignedZone_of_place hplace]
      split
      · rfl
      · exact hold.queue j
    · have := hold.pending; omega
    · have := hold.stranded; omega
  · rw [hel]
    split
    next hj => rw [hj]; exact index
    next => exact h.index j

end

/-! ### Figures of single records -/

namespace Books
variable {b : Bool} {s : State} (h : Books b s)
include h

theorem one_le_inUse (i p : Nat) : one ((s.hel i).assignment == some p) ≤ (s.point p).inUse :=
  (h.point p).inUse ▸ s.le_tally (f := fun h => one (h.assignment == some p)) rfl i

theorem one_le_diverted (i p : Nat) :
    one ((s.hel i).onAlternate && (s.hel i).assignment == some p) ≤ (s.point p).diverted :=
  (h.point p).diverted ▸ s.le_tally (f := fun h => one (h.onAlternate && h.assignment == some p)) rfl i

theorem one_le_altLoad (i p : Nat) :
    one ((s.hel i).onAlternate && s.alternateOf (s.hel i) == some p) ≤ (s.point p).altLoad :=
  (h.point p).altLoad ▸ s.le_tally (f := fun h => one (h.onAlternate && s.alternateOf h == some p)) rfl i

theorem one_le_pending (i z : Nat) : one ((s.hel i).departureZone == some z) ≤ (s.zone z).pendingDepartures :=
  (h.zone z).pending ▸ s.le_tally (f := fun h => one (h.departureZone == some z)) rfl i

theorem strandedIn_le (i z : Nat) : (s.hel i).strandedIn z ≤ (s.zone z).stranded :=
  (h.zone z).stranded ▸ s.le_tally (f := Hel.strandedIn z) rfl i

theorem joinZone_lt (g : Hel) : s.joinZone g < 12 := by
  unfold State.joinZone
  split
  · exact (h.point _).zone
  · decide

theorem onAlternate_eq_false {i : Nat} (hi : (s.hel i).state ≠ .onTarget) : (s.hel i).onAlternate = false := by
  by_contra hon
  exact hi ((h.record i).alternate (by simpa using hon)).1

theorem assigned_valid {i p : Nat} (hi : (s.hel i).assignment = some p) : (s.point p).valid = true := by
  by_contra hv
  have huse := ((h.point p).invalid (by simpa using hv)).1
  have hle := h.one_le_inUse i p
  rw [hi, huse] at hle
  simp [one] at hle

end Books

end Sys2Proof.Machine
end

section
/-! PROOFS. Each move between the collections keeps the books of the field. -/

-- One proof after another: begun all at once, the proofs of the whole text outgrow the check's memory.
set_option Elab.async false

namespace Sys2Proof.Machine

/-! ### What the moves write in points and zones -/

theorem one_some_beq_some (a p : Nat) : one (some a == some p) = if p = a then 1 else 0 := by
  by_cases h : p = a
  · simp [one, h]
  · simp [one, h, Ne.symm h]

theorem one_none_beq_some (p : Nat) : one ((none : Option Nat) == some p) = 0 := rfl

theorem one_beq (p q : Nat) : one (p == q) = if p = q then 1 else 0 := by
  by_cases h : p = q <;> simp [one, h]

section
variable (s : State) (z i p : Nat)

/-- The point read after another one's rewrite, in its own terms. -/
theorem State.point_modPoint_self (q : Nat) (f : Point → Point) :
    (s.modPoint q f).point p = if p = q then f (s.point p) else s.point p := by
  rw [State.point_modPoint]
  split
  next h => rw [h]
  next => rfl

/-- The counts of R51 after on_alternate is cleared. -/
theorem State.point_clearAlternate : (s.clearAlternate i).point p = { s.point p with
    diverted := (s.point p).diverted - one ((s.hel i).onAlternate && (s.hel i).assignment == some p)
    altLoad := (s.point p).altLoad - one ((s.hel i).onAlternate && s.alternateOf (s.hel i) == some p) } := by
  unfold State.clearAlternate
  dsimp only
  cases (s.hel i).onAlternate with
  | false => rfl
  | true =>
    simp only [if_true, State.modHel_point, Bool.true_and]
    cases (s.hel i).assignment with
    | none =>
      cases s.alternateOf (s.hel i) with
      | none => rfl
      | some q' =>
        simp only [State.point_modPoint_self, one_some_beq_some, one_none_beq_some]
        split <;> rfl
    | some q =>
      cases s.alternateOf (s.hel i) with
      | none =>
        simp only [State.point_modPoint_self, one_some_beq_some, one_none_beq_some]
        split <;> rfl
      | some q' =>
        simp only [State.point_modPoint_self, one_some_beq_some]
        split <;> split <;> rfl

theorem State.point_departFrom (dst : HState) : (s.departFrom z i dst).point p = (s.clearAlternate i).point p := rfl

/-- The in-use counts of R23 after an assignment is written. -/
theorem State.point_writeAssignment (x : Option Nat) : (s.writeAssignment i x).point p = { s.point p with
    inUse := (s.point p).inUse - one ((s.hel i).assignment == some p) + one (x == some p) } := by
  unfold State.writeAssignment
  dsimp only
  cases (s.hel i).assignment with
  | none =>
    cases x with
    | none => rfl
    | some q' =>
      simp only [State.modHel_point, State.point_modPoint_self, one_some_beq_some, one_none_beq_some]
      split <;> rfl
  | some q =>
    cases x with
    | none =>
      simp only [State.modHel_point, State.point_modPoint_self, one_some_beq_some, one_none_beq_some]
      split <;> rfl
    | some q' =>
      simp only [State.modHel_point, State.point_modPoint_self, one_some_beq_some]
      split <;> split <;> rfl

/-- The counts of R51 after a re-route. -/
theorem State.point_reroute (q : Nat) : (s.reroute z i q).point p = { s.point p with
    diverted := (s.point p).diverted + one ((s.hel i).assignment == some p)
    altLoad := (s.point p).altLoad + one (p == q) } := by
  unfold State.reroute
  dsimp only
  cases (s.hel i).assignment with
  | none =>
    simp only [State.urgentAdd, State.modSeg_point, State.modHel_point, State.point_modPoint_self, State.modZone_point,
      one_beq, one_none_beq_some]
    split <;> rfl
  | some a =>
    simp only [State.urgentAdd, State.modSeg_point, State.modHel_point, State.point_modPoint_self, State.modZone_point,
      one_beq, one_some_beq_some]
    split <;> split <;> rfl

end

/-! ### Points and zones that stand -/

theorem State.tablesOk_setHel {s : State} (h : s.tablesOk = true) (i : Nat) (g : Hel) :
    (s.setHel i g).tablesOk = true := by
  rw [State.tablesOk_iff] at h ⊢
  exact ⟨Tab.wf_put h.1 _ _, h.2⟩

/-- Points that stand follow a record that keeps its assignment and its alternate's flag. -/
theorem PointsFollow.of_points {s t : State} {g g' : Hel} (hp : ∀ p, t.point p = s.point p)
    (ha : g'.assignment = g.assignment) (ho : g'.onAlternate = g.onAlternate) : PointsFollow s t g g' := by
  have halt : s.alternateOf g' = s.alternateOf g := by rw [State.alternateOf, State.alternateOf, ha]
  constructor <;> intro p
  · rw [hp]
  · rw [hp, ha]
  · rw [hp, ha, ho]
  · rw [hp, halt, ho]
  · rw [ha]; exact .inl
  · rw [ho, halt]; exact fun hon hq => .inl ⟨hon, hq⟩

/-- Zones that keep collections and sums follow a record that keeps its place in them. -/
theorem Books.zonesFollow_of_zones {b : Bool} {s t : State} (h : Books b s) {i : Nat} {g' : Hel}
    (hz : ∀ z, (t.zone z).booked = (s.zone z).booked)
    (hjoin : ∀ z, (g'.state = .onTarget ∧ s.joinZone g' = z) ↔ ((s.hel i).state = .onTarget ∧ s.joinZone (s.hel i) = z))
    (hqueue : ∀ z, (g'.state = .queued ∧ s.assignedZone g' = z)
      ↔ ((s.hel i).state = .queued ∧ s.assignedZone (s.hel i) = z))
    (hd : g'.departureZone = (s.hel i).departureZone) (hst : g'.stranded = (s.hel i).stranded) :
    ZonesFollow s t i (s.hel i) g' := by
  have hlists z : (t.zone z).joinList = (s.zone z).joinList ∧ (t.zone z).queue = (s.zone z).queue
      ∧ (t.zone z).pendingDepartures = (s.zone z).pendingDepartures ∧ (t.zone z).stranded = (s.zone z).stranded := by
    have := hz z
    simp only [Zone.booked, Prod.mk.injEq] at this
    tauto
  constructor <;> intro z
  · rw [(hlists z).1]; exact (h.zone z).joinNodup
  · rw [(hlists z).2.1]; exact (h.zone z).queueNodup
  · intro j
    rw [(hlists z).1]
    split
    next hj => rw [hj, hjoin]; exact (h.zone z).join i
    next => rfl
  · intro j
    rw [(hlists z).2.1]
    split
    next hj => rw [hj, hqueue]; exact (h.zone z).queue i
    next => rfl
  · rw [(hlists z).2.2.1, hd]
  · rw [(hlists z).2.2.2]
    simp only [Hel.strandedIn, hst]

namespace Books
variable {b : Bool} {s : State} (h : Books b s)
include h

/-! ### The moves -/

theorem present {i : Nat} (hi : (s.hel i).state ≠ .absent) (x : HState) : x ≠ .absent → i ≤ 1999 := fun _ => h.index i hi

/-- A departure into a state of its own (R28, R61). -/
theorem departFrom {z i : Nat} (hi : (s.hel i).state = .onTarget) (hz : s.joinZone (s.hel i) = z) {dst : HState}
    (habsent : dst ≠ .absent) (haimed : dst ≠ .onTarget) (hqueued : dst ≠ .queued) (hstow : b = true → dst ≠ .standby) :
    Books b (s.departFrom z i dst) := by
  have hr := h.record i
  have hstranded : (s.hel i).stranded = none := by
    by_contra hs
    rcases hr.stranded (Option.isSome_iff_ne_none.2 hs) with h' | h' <;> rw [hi] at h' <;> cases h'
  have hdeparture : (s.hel i).departureZone = none := by
    have := (hr.departing).symm.trans (hr.aimed hi)
    simpa using this
  refine h.moved ((Writes.departFrom (p := true) .refl z i dst).tablesOk h.tables) (s.hel_departFrom z i dst) ?_ ?_ ?_
    (fun _ => h.index i (by rw [hi]; decide)) (congrArg (·.pau.lateCount) (s.departFrom_offTable z i dst))
  · have hd p := h.one_le_diverted i p
    have ha p := h.one_le_altLoad i p
    constructor <;> intro p
    · rw [State.point_departFrom, State.point_clearAlternate]; rfl
    · rw [State.point_departFrom, State.point_clearAlternate]
    · rw [State.point_departFrom, State.point_clearAlternate]
      exact Nat.sub_add_cancel (hd p)
    · rw [State.point_departFrom, State.point_clearAlternate]
      exact Nat.sub_add_cancel (ha p)
    · exact .inl
    · exact fun hon => by cases hon
  · constructor <;> intro y <;> rw [State.zone_departFrom]
    · split
      · exact ((h.zone z).joinNodup).erase i
      · exact (h.zone y).joinNodup
    · split
      · exact (h.zone z).queueNodup
      · exact (h.zone y).queueNodup
    · intro j
      split
      next hy =>
        subst hy
        rw [(h.zone y).joinNodup.mem_erase_iff]
        split <;> simp_all
      next hy =>
        split
        next hj =>
          rw [hj, (h.zone y).join]
          simp [haimed, hz, Ne.symm hy]
        next => rfl
    · intro j
      have hiff : (j ∈ (s.zone y).queue) ↔
          if j = i then dst = .queued ∧ s.assignedZone (s.hel i) = y else j ∈ (s.zone y).queue := by
        split
        next hj => rw [hj, (h.zone y).queue, hi]; simp [hqueued]
        next => rfl
      split
      next hy => rw [← hy]; exact hiff
      next => exact hiff
    · rw [hdeparture]
      split
      next hy => rw [hy, one_some_beq_some, one_none_beq_some, if_pos rfl]
      next hy => rw [one_some_beq_some, one_none_beq_some, if_neg hy]
    · simp only [Hel.strandedIn]
      split
      next hy => rw [hy]
      next => rfl
  · exact {
      hr with
      absent := fun hs => absurd hs habsent
      assigned := fun _ => hr.assigned (.inl hi)
      aimed := fun hs => absurd hs haimed
      alternate := fun hon => by cases hon
      stranded := fun hs => by rw [hstranded] at hs; cases hs
      departing := rfl
      departureZone := fun y hy => by cases hy; rw [← hz]; exact h.joinZone_lt _
      stow := fun hb => ⟨haimed, hqueued, hstow hb⟩ }

/-- Out of a queue (R28). -/
theorem dequeue {i : Nat} (hi : (s.hel i).state = .queued) {dst : HState} (habsent : dst ≠ .absent)
    (haimed : dst ≠ .onTarget) (hqueued : dst ≠ .queued) (hstow : b = true → dst ≠ .standby) :
    Books b (s.dequeue i dst) := by
  have hr := h.record i
  have hstranded : (s.hel i).stranded = none := by
    by_contra hs
    rcases hr.stranded (Option.isSome_iff_ne_none.2 hs) with h' | h' <;> rw [hi] at h' <;> cases h'
  refine h.moved ((Writes.dequeue (p := true) (q := true) .refl i dst).tablesOk h.tables) (s.hel_dequeue i dst)
    (.of_points (fun _ => rfl) rfl rfl) ?_ ?_ (fun _ => h.index i (by rw [hi]; decide)) rfl
  · constructor <;> intro y <;> rw [State.zone_dequeue]
    · split <;> exact (h.zone y).joinNodup
    · split
      · exact ((h.zone y).queueNodup).erase i
      · exact (h.zone y).queueNodup
    · intro j
      have hiff : (j ∈ (s.zone y).joinList) ↔
          if j = i then dst = .onTarget ∧ s.joinZone (s.hel i) = y else j ∈ (s.zone y).joinList := by
        split
        next hj => rw [hj, (h.zone y).join, hi]; simp [haimed]
        next => rfl
      split <;> exact hiff
    · intro j
      split
      next hy =>
        rw [(h.zone y).queueNodup.mem_erase_iff]
        split <;> simp_all
      next hy =>
        split
        next hj =>
          rw [hj, (h.zone y).queue]
          simp [hqueued, Ne.symm hy]
        next => rfl
    · split <;> rfl
    · simp only [Hel.strandedIn]
      split <;> rfl
  · exact {
      hr with
      absent := fun hs => absurd hs habsent
      assigned := fun _ => hr.assigned (.inr hi)
      aimed := fun hs => absurd hs haimed
      alternate := fun hon => by rw [h.onAlternate_eq_false (by rw [hi]; decide)] at hon; cases hon
      stranded := fun hs => by rw [hstranded] at hs; cases hs
      stow := fun hb => ⟨haimed, hqueued, hstow hb⟩ }

/-- Into a queue, while stow is not in effect (R28). -/
theorem enqueue {i : Nat} (hb : b = false) (habsent : (s.hel i).state ≠ .absent) (haimed : (s.hel i).state ≠ .onTarget)
    (hqueued : (s.hel i).state ≠ .queued) (hassigned : (s.hel i).assignment.isSome = true)
    (hstranded : (s.hel i).stranded = none) : Books b (s.enqueue i) := by
  have hr := h.record i
  refine h.moved ((Writes.enqueue (p := true) (q := true) .refl i).tablesOk h.tables) (s.hel_enqueue i)
    (.of_points (fun _ => rfl) rfl rfl) ?_ ?_ (fun _ => h.index i habsent) rfl
  · constructor <;> intro y <;> rw [State.zone_enqueue]
    · split <;> exact (h.zone y).joinNodup
    · split
      · refine List.Nodup.append (h.zone y).queueNodup (List.nodup_singleton i) ?_
        simp only [List.disjoint_singleton]
        exact fun hmem => hqueued (((h.zone y).queue i).1 hmem).1
      · exact (h.zone y).queueNodup
    · intro j
      have hiff : (j ∈ (s.zone y).joinList) ↔
          if j = i then HState.queued = .onTarget ∧ s.joinZone (s.hel i) = y else j ∈ (s.zone y).joinList := by
        split
        next hj => rw [hj, (h.zone y).join]; simp [haimed]
        next => rfl
      split <;> exact hiff
    · intro j
      have hnot : i ∉ (s.zone y).queue := fun hmem => hqueued (((h.zone y).queue i).1 hmem).1
      change _ ↔ if j = i then HState.queued = .queued ∧ s.assignedZone (s.hel i) = y else _
      split
      next hy =>
        rw [List.mem_append, List.mem_singleton]
        split
        next hj => simp [hj, hy]
        next hj => simp [hj]
      next hy =>
        split
        next hj => rw [hj]; simp [hnot, Ne.symm hy]
        next => rfl
    · split <;> rfl
    · simp only [Hel.strandedIn]
      split <;> rfl
  · exact {
      hr with
      absent := fun hs => by cases hs
      assigned := fun _ => hassigned
      aimed := fun hs => by cases hs
      alternate := fun hon => by rw [h.onAlternate_eq_false haimed] at hon; cases hon
      stranded := fun hs => by rw [hstranded] at hs; cases hs
      stow := fun hb' => by rw [hb] at hb'; cases hb' }

/-- A record rewritten outside the collections, with its assignment, departure and stranded amount. -/
theorem setIdle {i : Nat} {g' : Hel} (habsent : (s.hel i).state ≠ .absent ∨ i ≤ 1999)
    (haimed : (s.hel i).state ≠ .onTarget) (hqueued : (s.hel i).state ≠ .queued) (haimed' : g'.state ≠ .onTarget)
    (hqueued' : g'.state ≠ .queued) (ha : g'.assignment = (s.hel i).assignment) (ho : g'.onAlternate = false)
    (hd : g'.departureZone = (s.hel i).departureZone) (hst : g'.stranded = (s.hel i).stranded)
    (record : RecordBooks b s g') : Books b (s.setHel i g') := by
  refine h.moved (State.tablesOk_setHel h.tables i g') (s.hel_setHel i · g') (.of_points (fun _ => rfl) ha (ho.trans (h.onAlternate_eq_false haimed).symm))
    (h.zonesFollow_of_zones (fun _ => rfl) (fun z => by simp [haimed, haimed']) (fun z => by simp [hqueued, hqueued'])
      hd hst) record (fun _ => habsent.elim (h.index i) id) rfl

end Books

end Sys2Proof.Machine
end

section
/-! PROOFS. The rest of the moves that keep the books of the field: the ends of departures, stranded flux, re-routes,
grants and assignments; and the writes that leave what the books read. -/

-- One proof after another: begun all at once, the proofs of the whole text outgrow the check's memory.
set_option Elab.async false

namespace Sys2Proof.Machine

theorem State.tablesOk_modZone {s : State} (h : s.tablesOk = true) (z : Nat) (f : Zone → Zone) :
    (s.modZone z f).tablesOk = true := by
  rw [State.tablesOk_iff] at h ⊢
  obtain ⟨hh, hp, hz, hrest⟩ := h
  exact ⟨hh, hp, Tab.wf_put hz _ _, hrest⟩

/-! ### Records and zones after a re-route, a grant, an assignment, a release -/

section
variable (s : State) (z i q y j : Nat)

theorem State.hel_reroute : (s.reroute z i q).hel j =
    if j = i then { s.hel i with onAlternate := true } else s.hel j := by
  unfold State.reroute
  dsimp only
  split <;> simp only [State.urgentAdd, State.modSeg_hel, State.hel_modHel, State.modPoint_hel, State.modZone_hel]

theorem State.zone_reroute (hq : (s.point q).zone ≠ z) : (s.reroute z i q).zone y = { s.zone y with
    joinList := if y = z then (s.zone y).joinList.erase i
      else if y = (s.point q).zone then (s.zone y).joinList ++ [i] else (s.zone y).joinList } := by
  have hlist := s.joinList_reroute z i q hq y
  have hrest : { (s.reroute z i q).zone y with joinList := [] } = { s.zone y with joinList := [] } := by
    unfold State.reroute
    dsimp only
    have hlists : ({ ((s.modZone z fun zn => { zn with joinList := zn.joinList.erase i }).modZone (s.point q).zone
        fun zn => { zn with joinList := zn.joinList ++ [i] }).zone y with joinList := [] } : Zone)
          = { s.zone y with joinList := [] } := by
      simp only [State.zone_modZone, if_neg hq]
      split
      next hy => rw [hy]
      next => split
              next hy => rw [hy]
              next => rfl
    split <;> exact hlists
  rw [← hlist]
  generalize (s.reroute z i q).zone y = a at hrest ⊢
  cases a
  simp_all

theorem State.point_clearDeparture : (s.clearDeparture i).point j = s.point j := by
  unfold State.clearDeparture
  dsimp only
  split
  · split <;> rfl
  · rfl

theorem State.point_grant : (s.grant z i).point j = s.point j := by
  rw [State.grant, State.point_clearDeparture]
  rfl

theorem State.zone_grant : (s.grant z i).zone y = { s.zone y with
    joinList := if y = z then (s.zone y).joinList ++ [i] else (s.zone y).joinList
    queue := if y = z then (s.zone y).queue.tail else (s.zone y).queue
    pendingDepartures := (s.zone y).pendingDepartures
      - one ((s.hel i).departing && (s.hel i).departureZone == some y) } := by
  rw [State.grant, State.zone_clearDeparture]
  simp only [State.hel_modHel_same, State.modHel_zone, State.zone_modZone, State.modZone_hel]
  by_cases hd : (s.hel i).departing = true ∧ (s.hel i).departureZone = some y
  · rw [if_pos hd, hd.1, hd.2]
    split
    next hy => rw [hy]; simp [one]
    next hy => simp [one]
  · rw [if_neg hd]
    have hone : one ((s.hel i).departing && (s.hel i).departureZone == some y) = 0 := by
      have : ((s.hel i).departing && (s.hel i).departureZone == some y) = false := by simpa using hd
      rw [this]; rfl
    rw [hone]
    split
    next hy => rw [hy]; rfl
    next hy => rfl

theorem State.hel_writeAssignment (x : Option Nat) : (s.writeAssignment i x).hel j =
    if j = i then { s.hel i with assignment := x } else s.hel j := by
  unfold State.writeAssignment
  dsimp only
  split <;> split <;> simp only [State.hel_modHel, State.modPoint_hel]

theorem State.zone_writeAssignment (x : Option Nat) : (s.writeAssignment i x).zone y = s.zone y := by
  unfold State.writeAssignment
  dsimp only
  split <;> split <;> rfl

theorem State.pau_writeAssignment (x : Option Nat) : (s.writeAssignment i x).pau = s.pau := by
  unfold State.writeAssignment
  dsimp only
  split <;> split <;> rfl

/-- A heliostat on its primary point is counted in its assigned zone. -/
theorem State.joinZone_of_primary {g : Hel} (hg : g.onAlternate = false) : s.joinZone g = s.assignedZone g := by
  unfold State.joinZone State.aimedPoint State.assignedZone
  rw [hg]
  rfl

end

namespace Books
variable {b : Bool} {s : State} (h : Books b s)
include h

/-- The end of a departure (R62, R63). -/
theorem clearDeparture (i : Nat) : Books b (s.clearDeparture i) := by
  have hr := h.record i
  by_cases hd : (s.hel i).departing = true
  · have hhel j : (s.clearDeparture i).hel j =
        if j = i then { s.hel i with departing := false, departureZone := none } else s.hel j := by
      rw [State.hel_clearDeparture]
      simp only [hd, and_true]
    have hzone y : (s.clearDeparture i).zone y = { s.zone y with
        pendingDepartures := (s.zone y).pendingDepartures - one ((s.hel i).departureZone == some y) } := by
      rw [State.zone_clearDeparture]
      by_cases hy : (s.hel i).departureZone = some y
      · rw [if_pos ⟨hd, hy⟩, hy, one_some_beq_some, if_pos rfl]
      · rw [if_neg fun h' => hy h'.2]
        have : one ((s.hel i).departureZone == some y) = 0 := by simp [one, hy]
        rw [this]
        rfl
    refine h.moved ((Writes.clearDeparture (p := true) .refl i).tablesOk h.tables) hhel
      (.of_points (s.point_clearDeparture i) rfl rfl) ?_ ?_ (fun _ => h.index i fun ha => ?_)
      (congrArg (·.pau.lateCount) (s.clearDeparture_offTable i))
    · constructor <;> intro y <;> rw [hzone]
      · exact (h.zone y).joinNodup
      · exact (h.zone y).queueNodup
      · intro j
        split
        next hj => rw [hj]; exact (h.zone y).join i
        next => rfl
      · intro j
        split
        next hj => rw [hj]; exact (h.zone y).queue i
        next => rfl
      · exact Nat.sub_add_cancel (h.one_le_pending i y)
      · rfl
    · exact {
        hr with
        absent := fun hs => ⟨(hr.absent hs).1, rfl, (hr.absent hs).2.2⟩
        aimed := fun _ => rfl
        departing := rfl
        departureZone := fun _ hz => by cases hz }
    · rw [(hr.absent ha).2.1] at hd; cases hd
  · have heq : s.clearDeparture i = s := by
      unfold State.clearDeparture
      rw [if_neg hd]
    rw [heq]
    exact h

/-- Flux stranded by an OFFLINE or FAULTED heliostat that held none (R47). -/
theorem strand {i z : Nat} (hi : (s.hel i).state = .offline ∨ (s.hel i).state = .faulted)
    (hnone : (s.hel i).stranded = none) (hz : z < 12) (a : Nat) :
    Books b ((s.modZone z fun zn => { zn with stranded := zn.stranded + a }).modHel i
      fun g => { g with stranded := some ⟨z, a⟩ }) := by
  have hr := h.record i
  have hpresent : (s.hel i).state ≠ .absent := by
    rintro ha
    rcases hi with h' | h' <;> rw [ha] at h' <;> cases h'
  refine h.moved (g' := { s.hel i with stranded := some ⟨z, a⟩ })
    (State.tablesOk_setHel (State.tablesOk_modZone h.tables z _) i _) (fun j => State.hel_modHel _ i j _) (.of_points (fun _ => rfl) rfl rfl) ?_ ?_
    (fun _ => h.index i hpresent) rfl
  · constructor <;> intro y <;> rw [State.modHel_zone, State.zone_modZone]
    · split
      · exact (h.zone z).joinNodup
      · exact (h.zone y).joinNodup
    · split
      · exact (h.zone z).queueNodup
      · exact (h.zone y).queueNodup
    · intro j
      have hiff : (j ∈ (s.zone y).joinList) ↔
          if j = i then (s.hel i).state = .onTarget ∧ s.joinZone (s.hel i) = y else j ∈ (s.zone y).joinList := by
        split
        next hj => rw [hj]; exact (h.zone y).join i
        next => rfl
      split
      next hy => rw [← hy]; exact hiff
      next => exact hiff
    · intro j
      have hiff : (j ∈ (s.zone y).queue) ↔
          if j = i then (s.hel i).state = .queued ∧ s.assignedZone (s.hel i) = y else j ∈ (s.zone y).queue := by
        split
        next hj => rw [hj]; exact (h.zone y).queue i
        next => rfl
      split
      next hy => rw [← hy]; exact hiff
      next => exact hiff
    · split
      next hy => rw [hy]
      next => rfl
    · simp only [Hel.strandedIn, hnone]
      split
      next hy => rw [hy, if_pos rfl]; exact Nat.add_zero _
      next hy => rw [if_neg (Ne.symm hy)]
  · exact {
      hr with
      absent := fun hs => absurd hs hpresent
      stranded := fun _ => hi
      strandedZone := fun st hst => by cases hst; exact hz }

end Books

end Sys2Proof.Machine
end

section
/-! PROOFS. Released flux, re-routes, grants, assignments and plain writes keep the books of the field. -/

-- One proof after another: begun all at once, the proofs of the whole text outgrow the check's memory.
set_option Elab.async false

namespace Sys2Proof.Machine

namespace Books
variable {b : Bool} {s : State} (h : Books b s)
include h

/-- The zones follow record `i` where its places in the lists, which both stand, do. -/
theorem zonesFollow_of_lists {t : State} {i : Nat} {g' : Hel}
    (hlists : ∀ z, (t.zone z).joinList = (s.zone z).joinList ∧ (t.zone z).queue = (s.zone z).queue)
    (hstate : g'.state = (s.hel i).state) (hassigned : g'.assignment = (s.hel i).assignment)
    (honAlternate : g'.onAlternate = (s.hel i).onAlternate)
    (pending : ∀ z, (t.zone z).pendingDepartures + one ((s.hel i).departureZone == some z)
      = (s.zone z).pendingDepartures + one (g'.departureZone == some z))
    (stranded : ∀ z, (t.zone z).stranded + (s.hel i).strandedIn z = (s.zone z).stranded + g'.strandedIn z) :
    ZonesFollow s t i (s.hel i) g' where
  joinNodup z := by rw [(hlists z).1]; exact (h.zone z).joinNodup
  queueNodup z := by rw [(hlists z).2]; exact (h.zone z).queueNodup
  join z j := by
    rw [(hlists z).1]
    split
    next hj =>
      have hzone : s.joinZone g' = s.joinZone (s.hel i) := by
        simp only [State.joinZone, State.aimedPoint, State.alternateOf, hassigned, honAlternate]
      rw [hj, hstate, hzone]
      exact (h.zone z).join i
    next => rfl
  queue z j := by
    rw [(hlists z).2]
    split
    next hj =>
      have hzone : s.assignedZone g' = s.assignedZone (s.hel i) := by simp only [State.assignedZone, hassigned]
      rw [hj, hstate, hzone]
      exact (h.zone z).queue i
    next => rfl
  pending := pending
  stranded := stranded

/-- A stranded amount returned to its zone (R26, R65). -/
theorem unstrand {i : Nat} {st : Stranded} (hst : (s.hel i).stranded = some st) :
    Books b ((s.modZone st.zone fun zn => { zn with stranded := zn.stranded - st.amount }).modHel i
      fun g => { g with stranded := none }) := by
  have hr := h.record i
  refine h.moved (g' := { s.hel i with stranded := none })
    (State.tablesOk_setHel (State.tablesOk_modZone h.tables st.zone _) i _) (fun j => State.hel_modHel _ i j _)
    (.of_points (fun _ => rfl) rfl rfl) (h.zonesFollow_of_lists (fun y => ?_) rfl rfl rfl (fun y => ?_) fun y => ?_) ?_
    (h.index i) rfl
  · rw [State.modHel_zone, State.zone_modZone]
    split
    next hy => rw [hy]; exact ⟨rfl, rfl⟩
    next => exact ⟨rfl, rfl⟩
  · rw [State.modHel_zone, State.zone_modZone]
    split
    next hy => rw [hy]
    next => rfl
  · have hle := h.strandedIn_le i y
    rw [State.modHel_zone, State.zone_modZone]
    simp only [Hel.strandedIn, hst] at hle ⊢
    split
    next hy =>
      rw [hy, if_pos rfl] at hle
      rw [hy, if_pos rfl]
      exact Nat.sub_add_cancel hle
    next hy => rw [if_neg (Ne.symm hy)]
  · exact {
      hr with
      absent := fun hs => ⟨(hr.absent hs).1, (hr.absent hs).2.1, rfl⟩
      stranded := fun hs => by cases hs
      strandedZone := fun _ hs => by cases hs }

/-- A member re-routed to a valid alternate in another zone (R68). -/
theorem reroute {z i q : Nat} (hi : i ∈ (s.zone z).joinList) (hq : s.reroutePoint z i = some q) :
    Books b (s.reroute z i q) := by
  have hr := h.record i
  obtain ⟨hstate, -⟩ := ((h.zone z).join i).1 hi
  obtain ⟨halternate, -, hprimary, hvalid, -, hother, -, -⟩ := (s.reroutePoint_eq_some z i q).1 hq
  have hvalid' : (s.point q).valid = true := by
    simp only [State.receiverOk, Bool.and_eq_true] at hvalid
    exact hvalid.2
  have hjoin : s.joinZone { s.hel i with onAlternate := true } = (s.point q).zone := by
    have halternate' : s.alternateOf { s.hel i with onAlternate := true } = some q := halternate
    simp only [State.joinZone, State.aimedPoint, if_true, halternate']
  have honly {y : Nat} (hy : y ≠ z) : i ∉ (s.zone y).joinList := fun hmem =>
    hy ((((h.zone y).join i).1 hmem).2.symm.trans (((h.zone z).join i).1 hi).2)
  refine h.moved (g' := { s.hel i with onAlternate := true })
    ((Writes.reroute (p := true) .refl z i q).tablesOk h.tables) (s.hel_reroute z i q) ?_ ?_ ?_
    (h.index i) (congrArg (·.pau.lateCount) (s.reroute_offTable z i q))
  · constructor <;> intro p
    · rw [State.point_reroute]; rfl
    · rw [State.point_reroute]
    · rw [State.point_reroute, hprimary]; rfl
    · have hone : one (p == q) = one (some q == some p) := by rw [one_beq, one_some_beq_some]
      rw [State.point_reroute, hprimary, hone, ← halternate]
      rfl
    · exact .inl
    · intro _ hp
      have hpq : some q = some p := halternate.symm.trans hp
      cases hpq
      exact .inr hvalid'
  · constructor <;> intro y <;> rw [State.zone_reroute s z i q y hother]
    · dsimp only
      split
      · exact ((h.zone y).joinNodup).erase i
      · split
        next hy hy' =>
          refine List.Nodup.append (h.zone y).joinNodup (List.nodup_singleton i) ?_
          simp only [List.disjoint_singleton]
          exact honly hy
        next => exact (h.zone y).joinNodup
    · exact (h.zone y).queueNodup
    · intro j
      rw [hjoin]
      dsimp only
      split
      next hy =>
        rw [(h.zone y).joinNodup.mem_erase_iff, hy]
        split
        next hj => simp [hj, hother]
        next hj => simp [hj]
      next hy =>
        split
        next hy' =>
          rw [List.mem_append, List.mem_singleton]
          split
          next hj => simp [hj, hstate, hy']
          next hj => simp [hj]
        next hy' =>
          split
          next hj => rw [hj]; simp [honly hy, Ne.symm hy']
          next => rfl
    · intro j
      change j ∈ (s.zone y).queue ↔
        if j = i then (s.hel i).state = .queued ∧ s.assignedZone (s.hel i) = y else j ∈ (s.zone y).queue
      split
      next hj => rw [hj]; exact (h.zone y).queue i
      next => rfl
    · rfl
  · exact { hr with alternate := fun _ => ⟨hstate, halternate ▸ rfl⟩ }

/-- The head of a queue granted (R71, R63). -/
theorem grant {z i : Nat} (hi : (s.zone z).queue.head? = some i) : Books b (s.grant z i) := by
  have hr := h.record i
  have hmem : i ∈ (s.zone z).queue := List.mem_of_mem_head? hi
  obtain ⟨hstate, hzone⟩ := ((h.zone z).queue i).1 hmem
  have hprimary := h.onAlternate_eq_false (i := i) (by rw [hstate]; decide)
  have hstranded : (s.hel i).stranded = none := by
    by_contra hs
    rcases hr.stranded (Option.isSome_iff_ne_none.2 hs) with h' | h' <;> rw [hstate] at h' <;> cases h'
  have hdeparture : (if (s.hel i).departing = true then none else (s.hel i).departureZone) = none := by
    split
    · rfl
    next hd =>
      have := hr.departing
      rw [Bool.eq_false_of_not_eq_true hd] at this
      simpa using this.symm
  have hone y : one ((s.hel i).departing && (s.hel i).departureZone == some y)
      = one ((s.hel i).departureZone == some y) := by
    rw [hr.departing]
    cases (s.hel i).departureZone <;> rfl
  have hqueue : (s.zone z).queue = i :: (s.zone z).queue.tail := (List.cons_head?_tail hi).symm
  have htail : i ∉ (s.zone z).queue.tail ∧ (s.zone z).queue.tail.Nodup :=
    List.nodup_cons.1 (hqueue ▸ (h.zone z).queueNodup)
  have honly {y : Nat} (hy : y ≠ z) : i ∉ (s.zone y).queue := fun hm =>
    hy ((((h.zone y).queue i).1 hm).2.symm.trans hzone)
  have hnot y : i ∉ (s.zone y).joinList := fun hm => by
    have := (((h.zone y).join i).1 hm).1
    rw [hstate] at this
    cases this
  refine h.moved ((Writes.grant (p := true) .refl z i).tablesOk h.tables) (s.hel_grant z i)
    (.of_points (s.point_grant z i) rfl hprimary.symm) ?_ ?_ (fun _ => h.index i (by rw [hstate]; decide))
    (congrArg (·.pau.lateCount) (s.grant_offTable z i))
  · constructor <;> intro y <;> rw [State.zone_grant]
    · dsimp only
      split
      · refine List.Nodup.append (h.zone y).joinNodup (List.nodup_singleton i) ?_
        simp only [List.disjoint_singleton]
        exact hnot y
      · exact (h.zone y).joinNodup
    · dsimp only
      split
      next hy => rw [hy]; exact htail.2
      next => exact (h.zone y).queueNodup
    · intro j
      have hjoin : s.joinZone { s.hel i with
          state := .onTarget, onAlternate := false, dev := 0, departing := false
          departureZone := if (s.hel i).departing then none else (s.hel i).departureZone } = z :=
        (State.joinZone_of_primary s rfl).trans hzone
      rw [hjoin]
      dsimp only
      split
      next hy =>
        rw [List.mem_append, List.mem_singleton]
        split
        next hj => simp [hj, hy]
        next hj => simp [hj]
      next hy =>
        split
        next hj => rw [hj]; simp [hnot y, Ne.symm hy]
        next => rfl
    · intro j
      dsimp only
      split
      next hy =>
        rw [hy]
        split
        next hj => rw [hj]; simp [htail.1]
        next hj => conv_rhs => rw [hqueue]
                   simp [hj]
      next hy =>
        split
        next hj => rw [hj]; simp [honly hy]
        next => rfl
    · rw [hdeparture, hone]
      exact Nat.sub_add_cancel (h.one_le_pending i y)
    · rfl
  · exact {
      hr with
      absent := fun hs => by cases hs
      assigned := fun _ => hr.assigned (.inr hstate)
      aimed := fun _ => rfl
      alternate := fun hon => by cases hon
      stranded := fun hs => by rw [hstranded] at hs; cases hs
      departing := by rw [hdeparture]; rfl
      departureZone := fun y hy => by rw [hdeparture] at hy; cases hy
      stow := fun hb => absurd hstate (hr.stow hb).2.1 }

/-- An assignment written or removed while the heliostat stands in no list (R23). -/
theorem writeAssignment {i : Nat} (habsent : (s.hel i).state ≠ .absent) (haimed : (s.hel i).state ≠ .onTarget)
    (hqueued : (s.hel i).state ≠ .queued) {x : Option Nat} (hx : ∀ p, x = some p → s.receiverOk p = true) :
    Books b (s.writeAssignment i x) := by
  have hr := h.record i
  have hok p (hp : x = some p) : p ≤ 95 ∧ (s.point p).valid = true := by
    simpa [State.receiverOk] using hx p hp
  have hprimary := h.onAlternate_eq_false haimed
  refine h.moved ((Writes.writeAssignment (p := true) (q := true) .refl i x).tablesOk h.tables)
    (fun j => s.hel_writeAssignment i j x) ?_ ?_ ?_ (fun _ => h.index i habsent)
    (congrArg (·.lateCount) (s.pau_writeAssignment i x))
  · constructor <;> intro p
    · rw [State.point_writeAssignment]; rfl
    · have hle := h.one_le_inUse i p
      rw [State.point_writeAssignment]
      dsimp only
      omega
    · rw [State.point_writeAssignment, hprimary]; rfl
    · rw [State.point_writeAssignment, hprimary]; rfl
    · exact fun hp => .inr (hok p hp).2
    · exact fun hon => by rw [hprimary] at hon; cases hon
  · constructor <;> intro y <;> rw [State.zone_writeAssignment]
    · exact (h.zone y).joinNodup
    · exact (h.zone y).queueNodup
    · intro j
      split
      next hj => rw [hj, (h.zone y).join]; simp [haimed]
      next => rfl
    · intro j
      split
      next hj => rw [hj, (h.zone y).queue]; simp [hqueued]
      next => rfl
    · rfl
  · exact {
      hr with
      absent := fun hs => absurd hs habsent
      assigned := fun hs => (hs.elim haimed hqueued).elim
      alternate := fun hon => by rw [hprimary] at hon; cases hon
      point := fun p hp => (hok p hp).1 }

end Books

/-! ### Plain writes -/

/-- What the books read of a record that changes in nothing else. -/
theorem RecordBooks.of_booked {b : Bool} {s : State} {g g' : Hel} (hg : g'.booked = g.booked) (h : RecordBooks b s g) :
    RecordBooks b s g' := by
  simp only [Hel.booked, Prod.mk.injEq] at hg
  obtain ⟨h1, h2, h3, h4, h5, h6, -, -⟩ := hg
  have halt : s.alternateOf g' = s.alternateOf g := by rw [State.alternateOf, State.alternateOf, h2]
  constructor <;> simp only [h1, h2, h3, h4, h5, h6, halt]
  exacts [h.absent, h.assigned, h.aimed, h.alternate, h.stranded, h.departing, h.point, h.departureZone, h.strandedZone,
    h.stow]

/-- The books read the three tables and the count of late departures. -/
theorem Books.of_tables {b : Bool} {s t : State} (h : Books b s) (tables : t.tablesOk = true) (hels : t.hels = s.hels)
    (points : ∀ p, t.point p = s.point p) (zones : ∀ z, (t.zone z).booked = (s.zone z).booked)
    (late : t.pau.lateCount ≤ 2000) : Books b t := by
  have hhel i : t.hel i = s.hel i := by rw [State.hel, hels, State.hel]
  have hplace p : (t.point p).place = (s.point p).place := by rw [points]
  have hlists z : (t.zone z).joinList = (s.zone z).joinList ∧ (t.zone z).queue = (s.zone z).queue
      ∧ (t.zone z).pendingDepartures = (s.zone z).pendingDepartures ∧ (t.zone z).stranded = (s.zone z).stranded := by
    have := zones z
    simp only [Zone.booked, Prod.mk.injEq] at this
    tauto
  have htally := State.tally_congr hels
  refine ⟨tables, fun i => ?_, fun p => ?_, fun z => ?_, fun i => ?_, late⟩
  · rw [hhel]; exact (h.record i).of_place hplace
  · obtain ⟨h1, h2, h3, h4, h5, h6⟩ := h.point p
    constructor <;> simp only [points, htally, alternateOf_of_place hplace] <;> assumption
  · obtain ⟨h1, h2, h3, h4, h5, h6⟩ := h.zone z
    obtain ⟨e1, e2, e3, e4⟩ := hlists z
    constructor <;> simp only [e1, e2, e3, e4, hhel, htally, joinZone_of_place hplace, assignedZone_of_place hplace] <;>
      assumption
  · rw [hhel]; exact h.index i

/-- A write that leaves what the books read keeps them. -/
theorem Write.books {p q b : Bool} {s t : State} (h : Write p q true s t) (hs : Books b s) : Books b t := by
  have htables := h.tablesOk hs.tables
  cases h with
  | hel i f range plain =>
    have hbooked : (f (s.hel i)).booked = (s.hel i).booked := plain.resolve_left (by decide)
    have hrecord := (hs.record i).of_booked hbooked
    simp only [Hel.booked, Prod.mk.injEq] at hbooked
    obtain ⟨h1, h2, h3, h4, h5, h6, -, -⟩ := hbooked
    refine hs.moved htables (s.hel_modHel i · f) (.of_points (fun _ => rfl) h2 h3)
      (hs.zonesFollow_of_lists (fun _ => ⟨rfl, rfl⟩) h1 h2 h3 (fun z => by rw [h6]; rfl)
        fun z => by simp only [Hel.strandedIn, h4]; rfl) hrecord (fun ha => hs.index i (h1 ▸ ha)) rfl
  | point i f plain => cases plain
  | zone z f range protection quiet plain =>
    have hbooked : (f (s.zone z)).booked = (s.zone z).booked := plain.resolve_left (by decide)
    refine hs.of_tables htables rfl (fun _ => rfl) (fun y => ?_) hs.late
    rw [State.zone_modZone]
    split
    next hy => rw [hy, hbooked]
    next => rfl
  | units _ h =>
    have hunits : t.bookedUnits = s.bookedUnits := h.plain.resolve_left (by decide)
    simp only [State.bookedUnits, Prod.mk.injEq] at hunits
    refine hs.of_tables htables h.hels (fun p => ?_) (fun z => ?_) ?_
    · rw [State.point, h.points, State.point]
    · rw [State.zone, h.zones, ← State.zone]
    · rw [hunits.2.2.1]; exact hs.late
  | _ => exact hs.of_tables htables rfl (fun _ => rfl) (fun _ => rfl) hs.late

theorem Writes.books {p q b : Bool} {s t : State} (h : Writes p q true s t) (hs : Books b s) : Books b t :=
  h.keeps (fun _ _ => Write.books) hs

end Sys2Proof.Machine
end

section
/-! PROOFS. Settlements keep the books of the field; and the books together with the safety of every zone, which the
moves and the settlements keep. -/

-- One proof after another: begun all at once, the proofs of the whole text outgrow the check's memory.
set_option Elab.async false

namespace Sys2Proof.Machine

/-! ### A return to the queue -/

/-- A table keeps the last value written to a slot. -/
theorem Tab.put_put {α : Type} [DecidableEq α] (d : α) (t : Tab α) (i : Nat) (v w : α) :
    Tab.put d (Tab.put d t i v) i w = Tab.put d t i w := by
  have herase : Tab.erase (Tab.put d t i v) i = Tab.erase t i := by
    have hinsert (u : Tab α) : Tab.erase (Tab.insert i v u) i = Tab.erase u i := by
      induction u with
      | nil => simp [Tab.insert, Tab.erase]
      | cons e u ih =>
        unfold Tab.insert
        split
        · simp [Tab.erase]
        · simp only [Tab.erase, List.filter_cons] at ih ⊢
          rw [ih]
    have hidem : Tab.erase (Tab.erase t i) i = Tab.erase t i := by simp [Tab.erase]
    unfold Tab.put
    split
    · exact hidem
    · rw [hinsert, hidem]
  unfold Tab.put at herase ⊢
  rw [herase]

theorem State.modHel_modHel (s : State) (i : Nat) (f g : Hel → Hel) :
    (s.modHel i f).modHel i g = s.modHel i fun h => g (f h) := by
  unfold State.modHel State.setHel
  dsimp only
  rw [Tab.put_put]
  congr 2
  exact congrArg g (Tab.get_put_same _ _ _ _)

/-- The state that a departure into QUEUED writes before it enters its queue is of no matter (R28, R69). -/
theorem State.enqueue_departFrom (s : State) (z i : Nat) (dst : HState) :
    (s.departFrom z i .queued).enqueue i = (s.departFrom z i dst).enqueue i := by
  have hput (u : State) (f g : Hel → Hel) (k : Nat) (zs : Tab Zone)
      (hfg : ∀ h : Hel, ({ f h with state := .queued } : Hel) = { g h with state := .queued }) :
      (({ (u.modHel i f).urgentAdd k i with zones := zs } : State).modHel i fun h => { h with state := .queued })
        = ({ (u.modHel i g).urgentAdd k i with zones := zs } : State).modHel i fun h => { h with state := .queued } := by
    unfold State.urgentAdd State.modSeg State.modHel State.setHel State.hel
    dsimp only
    rw [Tab.put_put, Tab.put_put, Tab.get_put_same, Tab.get_put_same, hfg]
    rfl
  have hzone : (s.departFrom z i .queued).assignedZone ((s.departFrom z i .queued).hel i)
      = (s.departFrom z i dst).assignedZone ((s.departFrom z i dst).hel i) := by
    rw [State.hel_departFrom, State.hel_departFrom, if_pos rfl, if_pos rfl]
    rfl
  unfold State.enqueue
  dsimp only
  rw [hzone]
  exact hput ((s.clearAlternate i).modZone z _) (fun h => { h with state := .queued, departing := true, departureZone := some z })
    (fun h => { h with state := dst, departing := true, departureZone := some z }) _ _ fun _ => rfl

namespace Books
variable {b : Bool} {s : State}

/-- A member of a join list returns to its queue (R69). -/
theorem returned (h : Books b s) {z i : Nat} (hi : (s.hel i).state = .onTarget) (hz : s.joinZone (s.hel i) = z) :
    Books b ((s.departFrom z i .queued).enqueue i) := by
  have hb : b = false := by
    by_contra hb
    exact ((h.record i).stow (by simpa using hb)).1 hi
  have hstranded : (s.hel i).stranded = none := by
    by_contra hs
    rcases (h.record i).stranded (Option.isSome_iff_ne_none.2 hs) with h' | h' <;> rw [hi] at h' <;> cases h'
  have hdep := h.departFrom hi hz (dst := .stowed) (by decide) (by decide) (by decide) (fun _ => by decide)
  rw [State.enqueue_departFrom s z i .stowed]
  have hhel := s.hel_departFrom z i .stowed i
  rw [if_pos rfl] at hhel
  refine hdep.enqueue hb ?_ ?_ ?_ ?_ ?_ <;> rw [hhel]
  · exact fun h => by cases h
  · exact fun h => by cases h
  · exact fun h => by cases h
  · exact (h.record i).assigned (.inl hi)
  · exact hstranded

/-- One shed turn (R68, R69). -/
theorem shedOne (h : Books b s) (z : Nat) : Books b (s.shedOne z) := by
  cases hl : (s.zone z).joinList.getLast? with
  | none => rw [State.shedOne, hl]; exact h
  | some i =>
    have hmem : i ∈ (s.zone z).joinList := List.mem_of_getLast? hl
    obtain ⟨hstate, hzone⟩ := ((h.zone z).join i).1 hmem
    rw [State.shedOne_of_newest hl]
    cases hq : s.reroutePoint z i with
    | some q => exact h.reroute hmem hq
    | none => exact h.returned hstate hzone

theorem shedLoop (h : Books b s) (n z : Nat) : Books b (shedLoop n z s) := by
  induction n generalizing s with
  | zero => exact h
  | succ n ih =>
    rw [Machine.shedLoop]
    split
    · exact ih (h.shedOne z)
    · exact h

theorem grantLoop (h : Books b s) (n z : Nat) : Books b (grantLoop n z s).1 := by
  induction n generalizing s with
  | zero => exact h
  | succ n ih =>
    cases hq : (s.zone z).queue with
    | nil => rw [Machine.grantLoop, hq]; exact h
    | cons i rest =>
      rw [grantLoop_head n hq]
      split
      · exact ih (h.grant (by rw [hq]; rfl))
      · exact h

/-- A zone's state, and events, are nothing to the books. -/
theorem zoneState (h : Books b s) (z : Nat) (x : ZState) : Books b (s.modZone z fun zn => { zn with state := x }) :=
  (Writes.zoneState (p := true) (q := true) .refl z x).books h

theorem raiseBoth (h : Books b s) (d : DEvent) (e : PEvent) : Books b (s.raiseBoth d e) :=
  (Writes.raiseBoth (p := true) (q := true) .refl d e).books h

theorem overStep (h : Books b s) (z : Nat) (was : ZState) : Books b (s.overStep z was) := by
  rw [State.overStep]
  split
  · exact h.zoneState z _
  · exact (h.zoneState z _).raiseBoth _ _

theorem grantStep (h : Books b s) (z : Nat) : Books b (s.grantStep z) := by
  rw [State.grantStep]
  split
  · exact h.zoneState z _
  split
  · exact h.zoneState z _
  · exact (h.grantLoop _ z).zoneState z _

/-- A settlement keeps the books (R66 to R72). -/
theorem settle (h : Books b s) (z : Nat) : Books b (s.settle z) := by
  have close (u : State) (hu : Books b u) : Books b (if u.overLimit z then u.overStep z (s.zone z).state else u.grantStep z) := by
    split
    · exact hu.overStep z _
    · exact hu.grantStep z
  refine close _ ?_
  split
  · exact (h.shedLoop _ z).raiseBoth _ _
  · exact h.shedLoop _ z

end Books

/-! ### The books and the safety of the zones -/

/-- The books with `b` for "stow is in effect", where stow in effect is `x`; and where `q` asks for it, every zone within
its limit or with nothing aimed at it, and every record on one of the eight segments. -/
structure Kept (q : Prop) (b x : Bool) (s : State) : Prop where
  books : Books b s
  stow : s.stowInEffect = x
  safe : q → s.zonesSafe
  segments : q → ∀ i, (s.hel i).segment ≤ 7

/-- A zone stays safe where its limit, its members' flux and its list do, or the list shrinks. -/
theorem State.zoneSafe_of_sublist {s t : State} {z : Nat}
    (hlimit : (t.zone z).effectiveLimit = (s.zone z).effectiveLimit)
    (hlist : (t.zone z).joinList.Sublist (s.zone z).joinList) (hstranded : (t.zone z).stranded ≤ (s.zone z).stranded)
    (hflux : ∀ i ∈ (t.zone z).joinList, t.pEff (t.hel i) = s.pEff (s.hel i)) (h : s.zoneSafe z) : t.zoneSafe z := by
  rcases h with hroom | hnil
  · left
    rw [State.overLimit_eq_false_iff] at hroom ⊢
    have hmap : (t.zone z).joinList.map (fun i => t.pEff (t.hel i))
        = (t.zone z).joinList.map fun i => s.pEff (s.hel i) := List.map_congr_left hflux
    have hsum := (hlist.map fun i => s.pEff (s.hel i)).sum_le_sum fun _ _ => Nat.zero_le _
    simp only [State.committed, State.joinSum, State.limitW, hlimit, hmap] at hroom ⊢
    omega
  · exact .inr (List.sublist_nil.1 (hnil ▸ hlist))

namespace Kept
variable {q : Prop} {b x : Bool} {s t : State}

/-- A step of departures, moves and settlements: the zones' safety is all there is to say besides the books. -/
theorem ofFrame (h : Kept q b x s) (f : SettleFrame s t) (books : Books b t) (safe : ∀ z, s.zoneSafe z → t.zoneSafe z) :
    Kept q b x t where
  books := books
  stow := by
    have hrest := f.2.2.2.2
    have hpau : t.rest.stowInEffect = s.rest.stowInEffect := by rw [hrest]
    exact hpau.trans h.stow
  safe hq z hz := safe z (h.safe hq z hz)
  segments hq i := by
    have hstill := congrArg (·.segment) (f.1 i)
    exact (Eq.le hstill).trans (h.segments hq i)

/-- A move after which every zone's list stands or has lost members. -/
theorem ofSublist (h : Kept q b x s) (f : SettleFrame s t) (books : Books b t)
    (hlist : ∀ z, (t.zone z).joinList.Sublist (s.zone z).joinList) : Kept q b x t :=
  h.ofFrame f books fun z => f.zoneSafe_of_sublist (hlist z)

/-- A write outside what settlements may change. -/
theorem ofNext (h : Kept q b x s) (books : Books b t) (stow : t.stowInEffect = s.stowInEffect)
    (hlimit : ∀ z, (t.zone z).effectiveLimit = (s.zone z).effectiveLimit)
    (hlist : ∀ z, (t.zone z).joinList.Sublist (s.zone z).joinList)
    (hstranded : ∀ z, (t.zone z).stranded ≤ (s.zone z).stranded)
    (hflux : ∀ z, ∀ i ∈ (t.zone z).joinList, t.pEff (t.hel i) = s.pEff (s.hel i))
    (hsegment : ∀ i, (s.hel i).segment ≤ 7 → (t.hel i).segment ≤ 7) : Kept q b x t where
  books := books
  stow := stow.trans h.stow
  safe hq z hz := State.zoneSafe_of_sublist (hlimit z) (hlist z) (hstranded z) (hflux z) (h.safe hq z hz)
  segments hq i := hsegment i (h.segments hq i)

/-- A settlement keeps books and safety, and makes its zone safe (R66). -/
theorem settle (h : Kept q b x s) (z : Nat) : Kept q b x (s.settle z) :=
  h.ofFrame (s.settle_frame z) (h.books.settle z) fun y => (settleKeeps_zoneSafe y).settle z

theorem settleList (h : Kept q b x s) (zs : List Nat) : Kept q b x (s.settleList zs) := by
  induction zs generalizing s with
  | nil => exact h
  | cons z zs ih => exact ih (h.settle z)

theorem settleAll (h : Kept q b x s) : Kept q b x s.settleAll := h.settleList _

end Kept

/-- Settlements make zones safe, whatever they were before. -/
theorem Books.settleList {b : Bool} {s : State} (h : Books b s) (zs : List Nat) : Books b (s.settleList zs) := by
  induction zs generalizing s with
  | nil => exact h
  | cons z zs ih => exact ih (h.settle z)

/-- A write that leaves what books and budget read keeps books and safety. -/
theorem Write.kept {p q' : Bool} {q : Prop} {b x : Bool} {s t : State} (h : Write p q' true s t) (hs : Kept q b x s) :
    Kept q b x t := by
  have hbooks := h.books hs.books
  have same {u : State} (hb : Books b u) (hst : u.stowInEffect = s.stowInEffect)
      (hz : ∀ z, (u.zone z).booked = (s.zone z).booked) (hf : ∀ i, u.pEff (u.hel i) = s.pEff (s.hel i))
      (hsg : ∀ i, (u.hel i).segment = (s.hel i).segment) : Kept q b x u := by
    have hz' z : (u.zone z).effectiveLimit = (s.zone z).effectiveLimit ∧ (u.zone z).joinList = (s.zone z).joinList
        ∧ (u.zone z).stranded = (s.zone z).stranded := by
      have := hz z
      simp only [Zone.booked, Prod.mk.injEq] at this
      obtain ⟨h1, h2, h3, h4, -⟩ := this
      exact ⟨by rw [Zone.effectiveLimit, h1, h2, Zone.effectiveLimit], h4, h3⟩
    exact hs.ofNext hb hst (fun z => (hz' z).1) (fun z => by rw [(hz' z).2.1]) (fun z => (hz' z).2.2.le)
      (fun _ i _ => hf i) fun i => (hsg i).le.trans
  cases h with
  | hel i f range plain =>
    have hbooked : (f (s.hel i)).booked = (s.hel i).booked := plain.resolve_left (by decide)
    simp only [Hel.booked, Prod.mk.injEq] at hbooked
    obtain ⟨-, -, -, -, -, -, hsegment, hclear⟩ := hbooked
    have hhel j : ((s.modHel i f).hel j).segment = (s.hel j).segment ∧ ((s.modHel i f).hel j).pClear = (s.hel j).pClear := by
      rw [State.hel_modHel]
      split
      next hj => rw [hj]; exact ⟨hsegment, hclear⟩
      next => exact ⟨rfl, rfl⟩
    refine same hbooks rfl (fun _ => rfl) (fun j => ?_) fun j => (hhel j).1
    rw [State.pEff, (hhel j).1, (hhel j).2]
    rfl
  | point i f plain => cases plain
  | zone z f range protection quiet plain =>
    have hbooked : (f (s.zone z)).booked = (s.zone z).booked := plain.resolve_left (by decide)
    refine same hbooks rfl (fun y => ?_) (fun _ => rfl) fun _ => rfl
    rw [State.zone_modZone]
    split
    next hy => rw [hy, hbooked]
    next => rfl
  | shade k f plain =>
    have hshaded : (f (s.shade k)).shaded = (s.shade k).shaded := plain.resolve_left (by decide)
    refine same hbooks rfl (fun _ => rfl) (fun i => ?_) fun _ => rfl
    have hshade j : ((s.modShade k f).shade j).shaded = (s.shade j).shaded := by
      rw [State.shade_modShade]
      split
      next hj => rw [hj, hshaded]
      next => rfl
    rw [State.pEff, hshade]
    rfl
  | units _ h =>
    have hunits : t.bookedUnits = s.bookedUnits := h.plain.resolve_left (by decide)
    simp only [State.bookedUnits, Prod.mk.injEq] at hunits
    obtain ⟨hasserted, hcommand, -, hshf⟩ := hunits
    have hhel i : t.hel i = s.hel i := by rw [State.hel, h.hels, State.hel]
    have hshade k : t.shade k = s.shade k := by rw [State.shade, h.shades, State.shade]
    refine same hbooks ?_ (fun z => ?_) (fun i => ?_) fun i => by rw [hhel]
    · rw [State.stowInEffect, hasserted, hcommand, State.stowInEffect]
    · rw [State.zone, h.zones, State.zone]
    · rw [hhel, State.pEff, hshade, hshf, State.pEff]
  | _ => exact same hbooks rfl (fun _ => rfl) (fun _ => rfl) fun _ => rfl

theorem Writes.kept {p q' : Bool} {q : Prop} {b x : Bool} {s t : State} (h : Writes p q' true s t)
    (hs : Kept q b x s) : Kept q b x t :=
  h.keeps (fun _ _ => Write.kept) hs

end Sys2Proof.Machine
end

section
/-! PROOFS. The moves of heliostats, the outcomes of the drive dialogue and the commands of the heliostat table keep the
books and the safety of the zones. -/

-- One proof after another: begun all at once, the proofs of the whole text outgrow the check's memory.
set_option Elab.async false

namespace Sys2Proof.Machine

/-! ### Flux stranded in a zone -/

/-- Heliostat `i` strands the flux `a` in zone `z` (R47). -/
def State.strandAt (s : State) (z i a : Nat) : State :=
  (s.modZone z fun zn => { zn with stranded := zn.stranded + a }).modHel i fun h => { h with stranded := some ⟨z, a⟩ }

theorem State.departStranding_eq (s : State) (i : Nat) (dst : HState) :
    s.departStranding i dst = (s.depart i dst).strandAt (s.joinZone (s.hel i)) i (s.pEff (s.hel i)) := rfl

section
variable (s : State) (z i a y j : Nat)

theorem State.hel_strandAt : (s.strandAt z i a).hel j =
    if j = i then { s.hel i with stranded := some ⟨z, a⟩ } else s.hel j := State.hel_modHel _ i j _

theorem State.zone_strandAt : (s.strandAt z i a).zone y =
    if y = z then { s.zone z with stranded := (s.zone z).stranded + a } else s.zone y := by
  rw [State.strandAt, State.modHel_zone, State.zone_modZone]

theorem State.pEff_strandAt : (s.strandAt z i a).pEff ((s.strandAt z i a).hel j) = s.pEff (s.hel j) := by
  rw [State.hel_strandAt]
  split
  next hj => rw [hj]; rfl
  next => rfl

end

namespace Kept
variable {q : Prop} {b x : Bool} {s : State}

theorem ite {c : Prop} [Decidable c] {t u : State} (ht : Kept q b x t) (hu : Kept q b x u) :
    Kept q b x (if c then t else u) := by
  split
  · exact ht
  · exact hu

/-! ### Moves -/

/-- A departure into a state of its own (R28, R61). -/
theorem depart (h : Kept q b x s) {i : Nat} (hi : (s.hel i).state = .onTarget) {dst : HState}
    (habsent : dst ≠ .absent) (haimed : dst ≠ .onTarget) (hqueued : dst ≠ .queued) (hstow : b = true → dst ≠ .standby) :
    Kept q b x (s.depart i dst) := by
  refine h.ofSublist (s.depart_frame i dst) (h.books.departFrom hi rfl habsent haimed hqueued hstow) fun z => ?_
  rw [State.zone_depart]
  split
  · exact List.erase_sublist
  · exact .refl _

/-- Into QUEUED as a departure (R162). -/
theorem returned (h : Kept q b x s) {i : Nat} (hi : (s.hel i).state = .onTarget) :
    Kept q b x ((s.depart i .queued).enqueue i) := by
  refine h.ofSublist ((s.depart_frame i _).trans (State.enqueue_frame _ i)) (h.books.returned hi rfl) fun z => ?_
  have hlist : (((s.depart i .queued).enqueue i).zone z).joinList = ((s.depart i .queued).zone z).joinList := by
    rw [State.zone_enqueue]
    split <;> rfl
  rw [hlist, State.zone_depart]
  split
  · exact List.erase_sublist
  · exact .refl _

theorem dequeue (h : Kept q b x s) {i : Nat} (hi : (s.hel i).state = .queued) {dst : HState} (habsent : dst ≠ .absent)
    (haimed : dst ≠ .onTarget) (hqueued : dst ≠ .queued) (hstow : b = true → dst ≠ .standby) :
    Kept q b x (s.dequeue i dst) := by
  refine h.ofSublist (s.dequeue_frame i dst) (h.books.dequeue hi habsent haimed hqueued hstow) fun z => ?_
  rw [State.zone_dequeue]
  split <;> exact .refl _

theorem enqueue (h : Kept q b x s) {i : Nat} (hb : b = false) (habsent : (s.hel i).state ≠ .absent)
    (haimed : (s.hel i).state ≠ .onTarget) (hqueued : (s.hel i).state ≠ .queued)
    (hassigned : (s.hel i).assignment.isSome = true) (hstranded : (s.hel i).stranded = none) :
    Kept q b x (s.enqueue i) := by
  refine h.ofSublist (s.enqueue_frame i) (h.books.enqueue hb habsent haimed hqueued hassigned hstranded) fun z => ?_
  rw [State.zone_enqueue]
  split <;> exact .refl _

theorem clearDeparture (h : Kept q b x s) (i : Nat) : Kept q b x (s.clearDeparture i) := by
  refine h.ofSublist (s.clearDeparture_frame i) (h.books.clearDeparture i) fun z => ?_
  rw [State.zone_clearDeparture]
  split <;> exact .refl _

/-- A record rewritten outside the collections, with its assignment, departure and stranded amount. -/
theorem setIdle (h : Kept q b x s) {i : Nat} {g' : Hel} (habsent : (s.hel i).state ≠ .absent ∨ i ≤ 1999)
    (haimed : (s.hel i).state ≠ .onTarget) (hqueued : (s.hel i).state ≠ .queued) (haimed' : g'.state ≠ .onTarget)
    (hqueued' : g'.state ≠ .queued) (ha : g'.assignment = (s.hel i).assignment) (ho : g'.onAlternate = false)
    (hd : g'.departureZone = (s.hel i).departureZone) (hst : g'.stranded = (s.hel i).stranded)
    (record : RecordBooks b s g') (segment : (s.hel i).segment ≤ 7 → g'.segment ≤ 7) : Kept q b x (s.setHel i g') := by
  refine h.ofNext (h.books.setIdle habsent haimed hqueued haimed' hqueued' ha ho hd hst record) rfl (fun _ => rfl)
    (fun _ => .refl _) (fun _ => Nat.le_refl _) (fun z j hj => ?_) fun j hj => ?_
  · have hne : j ≠ i := by
      rintro rfl
      exact haimed (((h.books.zone z).join j).1 hj).1
    rw [State.hel_setHel, if_neg hne]
    rfl
  · rw [State.hel_setHel]
    split
    next hji => subst hji; exact segment hj
    next => exact hj

/-- A state written to a record outside the collections. -/
theorem setState (h : Kept q b x s) {i : Nat} {dst : HState} (hpresent : (s.hel i).state ≠ .absent)
    (haimed : (s.hel i).state ≠ .onTarget) (hqueued : (s.hel i).state ≠ .queued) (habsent : dst ≠ .absent)
    (haimed' : dst ≠ .onTarget) (hqueued' : dst ≠ .queued) (hstow : b = true → dst ≠ .standby)
    (hstranded : (s.hel i).stranded.isSome = true → dst = .offline ∨ dst = .faulted) :
    Kept q b x (s.modHel i fun g => { g with state := dst }) := by
  have hr := h.books.record i
  have hprimary := h.books.onAlternate_eq_false haimed
  exact h.setIdle (g' := { s.hel i with state := dst }) (.inl hpresent) haimed hqueued haimed' hqueued' rfl hprimary rfl
    rfl { hr with
      absent := fun hs => absurd hs habsent
      assigned := fun hs => (hs.elim haimed' hqueued').elim
      aimed := fun hs => absurd hs haimed'
      alternate := fun hon => by rw [hprimary] at hon; cases hon
      stranded := hstranded
      stow := fun hb => ⟨haimed', hqueued', hstow hb⟩ } id

/-- A stranded amount that is present stands with an OFFLINE or FAULTED heliostat (R26). -/
theorem stranded_eq_none (h : Kept q b x s) {i : Nat} (hoff : (s.hel i).state ≠ .offline)
    (hfault : (s.hel i).state ≠ .faulted) : (s.hel i).stranded = none := by
  by_contra hs
  exact ((h.books.record i).stranded (Option.isSome_iff_ne_none.2 hs)).elim hoff hfault

/-- To the queue, or STOWED (R40, R43). -/
theorem queueOrStow (h : Kept q x x s) {i : Nat} (hpresent : (s.hel i).state ≠ .absent)
    (haimed : (s.hel i).state ≠ .onTarget) (hqueued : (s.hel i).state ≠ .queued)
    (hstranded : (s.hel i).stranded = none) : Kept q x x (s.queueOrStow i) := by
  have hstow := h.stow
  unfold State.queueOrStow
  dsimp only
  split
  next hq =>
    simp only [Bool.and_eq_true, Bool.not_eq_true'] at hq
    exact h.enqueue (hstow.symm.trans hq.1.2) hpresent haimed hqueued hq.1.1 hstranded
  next =>
    exact h.setState hpresent haimed hqueued (fun h => by cases h) (fun h => by cases h) (fun h => by cases h) (fun _ h => by cases h)
      fun hs => by rw [hstranded] at hs; cases hs

/-- A stranded amount is released (R65, R57). -/
theorem releaseFlux (h : Kept q b x s) (i : Nat) : Kept q b x (s.releaseFlux i) := by
  unfold State.releaseFlux
  split
  next st hst =>
    refine (Writes.leaveOver (p := true) (q := true) .refl st.zone).kept ?_
    refine h.ofNext (h.books.unstrand hst) rfl (fun z => ?_) (fun z => ?_) (fun z => ?_) (fun z j hj => ?_) fun j => ?_
    · rw [State.modHel_zone, State.zone_modZone]
      split
      next hz => rw [hz]; rfl
      next => rfl
    · rw [State.modHel_zone, State.zone_modZone]
      split
      next hz => rw [hz]
      next => exact .refl _
    · rw [State.modHel_zone, State.zone_modZone]
      split
      next hz => rw [hz]; exact Nat.sub_le _ _
      next => exact Nat.le_refl _
    · rw [State.hel_modHel]
      split
      next hji => rw [hji]; rfl
      next => rfl
    · rw [State.hel_modHel]
      split
      next hji => rw [hji]; exact id
      next => exact id
  next => exact h

/-- A heliostat leaves ON_TARGET and strands what it contributed: its zone's committed flux stands (R47). -/
theorem departStranding (h : Kept q b x s) {i : Nat} (hi : (s.hel i).state = .onTarget) {dst : HState}
    (hdst : dst = .offline ∨ dst = .faulted) : Kept q b x (s.departStranding i dst) := by
  have hne {y : HState} (hy : y ≠ .offline) (hy' : y ≠ .faulted) : dst ≠ y := by
    rintro rfl
    exact hdst.elim hy hy'
  have hdep := h.depart hi (dst := dst) (hne (fun h => by cases h) fun h => by cases h)
    (hne (fun h => by cases h) fun h => by cases h) (hne (fun h => by cases h) fun h => by cases h)
    (fun _ => hne (fun h => by cases h) fun h => by cases h)
  have hstranded : (s.hel i).stranded = none := h.stranded_eq_none (by rw [hi]; decide) (by rw [hi]; decide)
  have hself := s.hel_depart i dst i
  rw [if_pos rfl] at hself
  have hzone z : (s.depart i dst).zone z = _ := s.zone_depart i dst z
  have hframe := s.depart_frame i dst
  have hmem := ((h.books.zone (s.joinZone (s.hel i))).join i).2 ⟨hi, rfl⟩
  rw [State.departStranding_eq]
  generalize s.depart i dst = u at hdep hself hzone hframe
  have hflux j : (u.strandAt (s.joinZone (s.hel i)) i (s.pEff (s.hel i))).pEff
      ((u.strandAt (s.joinZone (s.hel i)) i (s.pEff (s.hel i))).hel j) = s.pEff (s.hel j) :=
    (u.pEff_strandAt _ _ _ j).trans (hframe.pEff_eq j)
  refine ⟨hdep.books.strand (by rw [hself]; exact hdst) (by rw [hself]; exact hstranded) (h.books.joinZone_lt _) _,
    hdep.stow, fun hq z hz => ?_, fun hq j => ?_⟩
  · have hold := h.safe hq z hz
    by_cases hy : z = s.joinZone (s.hel i)
    · subst hy
      left
      have hroom := hold.resolve_right (List.ne_nil_of_mem hmem)
      have hsum := List.sum_map_erase (fun j => s.pEff (s.hel j)) hmem
      rw [State.overLimit_eq_false_iff] at hroom ⊢
      simp only [State.committed, State.joinSum, State.limitW, State.zone_strandAt, if_true, hflux, hzone,
        Zone.effectiveLimit] at hroom ⊢
      omega
    · refine State.zoneSafe_of_sublist ?_ ?_ ?_ (fun j _ => hflux j) hold
        <;> rw [State.zone_strandAt, if_neg hy, hzone, if_neg hy]
  · have hseg := hdep.segments hq j
    rw [State.hel_strandAt]
    split
    next hji => subst hji; exact hseg
    next => exact hseg

/-! ### Outcomes of the drive dialogue -/

theorem raiseD (h : Kept q b x s) (e : DEvent) : Kept q b x (s.raiseD e) :=
  (Writes.raiseD (p := true) (q := true) .refl e).kept h

theorem raiseP (h : Kept q b x s) (e : PEvent) : Kept q b x (s.raiseP e) :=
  (Writes.raiseP (p := true) (q := true) .refl e).kept h

theorem raiseBoth (h : Kept q b x s) (d : DEvent) (e : PEvent) : Kept q b x (s.raiseBoth d e) :=
  (Writes.raiseBoth (p := true) (q := true) .refl d e).kept h

theorem goOffline (h : Kept q b x s) (i : Nat) : Kept q b x (s.goOffline i) := by
  unfold State.goOffline
  split
  next hi => exact (h.departStranding hi (.inl rfl)).raiseD _
  next hi => exact (h.dequeue hi (by decide) (by decide) (by decide) (fun _ => by decide)).raiseD _
  next hi => exact (h.setState (by rw [hi]; decide) (by rw [hi]; decide) (by rw [hi]; decide) (by decide) (by decide)
      (by decide) (fun _ => by decide) fun _ => .inl rfl).raiseD _
  next hi => exact (h.setState (by rw [hi]; decide) (by rw [hi]; decide) (by rw [hi]; decide) (by decide) (by decide)
      (by decide) (fun _ => by decide) fun _ => .inl rfl).raiseD _
  all_goals exact h

/-- A write of fields that neither the books nor the budget read. -/
theorem modHel_plain (h : Kept q b x s) (i : Nat) (f : Hel → Hel) (hf : (f (s.hel i)).booked = (s.hel i).booked) :
    Kept q b x (s.modHel i f) := by
  have hbooked := hf
  simp only [Hel.booked, Prod.mk.injEq] at hbooked
  obtain ⟨h1, h2, h3, h4, h5, h6, hsegment, hclear⟩ := hbooked
  have hhel j : ((s.modHel i f).hel j).segment = (s.hel j).segment ∧ ((s.modHel i f).hel j).pClear = (s.hel j).pClear := by
    rw [State.hel_modHel]
    split
    next hj => rw [hj]; exact ⟨hsegment, hclear⟩
    next => exact ⟨rfl, rfl⟩
  refine h.ofNext ?_ rfl (fun _ => rfl) (fun _ => .refl _) (fun _ => Nat.le_refl _) (fun z j _ => ?_) fun j => ?_
  · exact h.books.moved (State.tablesOk_setHel h.books.tables i _) (s.hel_modHel i · f) (.of_points (fun _ => rfl) h2 h3)
      (h.books.zonesFollow_of_lists (fun _ => ⟨rfl, rfl⟩) h1 h2 h3 (fun z => by rw [h6]; rfl)
        fun z => by simp only [Hel.strandedIn, h4]; rfl) ((h.books.record i).of_booked hf)
      (fun ha => h.books.index i (h1 ▸ ha)) rfl
  · rw [State.pEff, (hhel j).1, (hhel j).2]
    rfl
  · rw [(hhel j).1]; exact id

theorem missOne (h : Kept q b x s) (i : Nat) : Kept q b x (s.missOne i) := by
  have hmiss := h.modHel_plain i (fun g => { g with miss := min 15 ((s.hel i).miss + 1) }) rfl
  unfold State.missOne
  dsimp only
  split
  · exact hmiss.goOffline i
  · exact hmiss

/-- An action that is taken once for each element of a list. -/
theorem foldl {α : Type} {f : State → α → State} (hf : ∀ u a, Kept q b x u → Kept q b x (f u a)) (l : List α)
    (h : Kept q b x s) : Kept q b x (l.foldl f s) := by
  induction l generalizing s with
  | nil => exact h
  | cons a l ih => exact ih (hf s a h)

theorem accrue (h : Kept q b x s) (ks : List Nat) : Kept q b x (s.accrue ks) :=
  foldl (fun _ i hu => hu.missOne i) _ h

theorem acknowledgeReply (h : Kept q b x s) (i : Nat) (t : Option Target) (r : GoodReply) :
    Kept q b x (s.acknowledgeReply i t r) := by
  unfold State.acknowledgeReply
  dsimp only
  exact ite (ite ((h.clearDeparture i).releaseFlux i) (h.clearDeparture i)) h

theorem goFaulted (h : Kept q b x s) (i : Nat) : Kept q b x (s.goFaulted i) := by
  unfold State.goFaulted
  split
  next hi => exact (h.departStranding hi (.inr rfl)).raiseBoth _ _
  next hi => exact (h.dequeue hi (by decide) (by decide) (by decide) (fun _ => by decide)).raiseBoth _ _
  next hi => exact (h.setState (by rw [hi]; decide) (by rw [hi]; decide) (by rw [hi]; decide) (by decide) (by decide)
      (by decide) (fun _ => by decide) fun _ => .inr rfl).raiseBoth _ _
  next hi => exact (h.setState (by rw [hi]; decide) (by rw [hi]; decide) (by rw [hi]; decide) (by decide) (by decide)
      (by decide) (fun _ => by decide) fun _ => .inr rfl).raiseBoth _ _
  next hi => exact (h.setState (by rw [hi]; decide) (by rw [hi]; decide) (by rw [hi]; decide) (by decide) (by decide)
      (by decide) (fun _ => by decide) fun _ => .inr rfl).raiseBoth _ _
  all_goals exact h

theorem goTrackingError (h : Kept q b x s) {i : Nat} (hi : (s.hel i).state = .onTarget) :
    Kept q b x (s.goTrackingError i) := by
  refine (Kept.modHel_plain (h.depart hi (by decide) (by decide) (by decide) fun hb => ?_) i _ rfl).raiseD _
  exact absurd hi ((h.books.record i).stow hb).1

theorem pointing (h : Kept q b x s) {i : Nat} (hi : (s.hel i).state = .onTarget) (carried : Option Vec3)
    (r : GoodReply) : Kept q b x (s.pointing i carried r) := by
  unfold State.pointing
  split
  · exact h
  · split
    · have hdev := h.modHel_plain i (fun g => { g with dev := min 15 ((s.hel i).dev + 1) }) rfl
      dsimp only
      split
      · exact hdev.goTrackingError (by rw [State.hel_modHel, if_pos rfl]; exact hi)
      · exact hdev
    · exact h

theorem consequences (h : Kept q x x s) (i : Nat) (carried : Option Vec3) (r : GoodReply) :
    Kept q x x (s.consequences i carried r) := by
  unfold State.consequences
  split
  · exact h.goFaulted i
  · split
    next hi =>
      split
      next hst => exact h.queueOrStow (by rw [hi]; decide) (by rw [hi]; decide) (by rw [hi]; decide) (by simpa using hst)
      next => exact h
    next hi => exact h.pointing hi carried r
    all_goals exact h

theorem applyReply (h : Kept q x x s) (i : Nat) (f : Frame) (r : GoodReply) : Kept q x x (s.applyReply i f r) :=
  ((h.modHel_plain i _ rfl).acknowledgeReply i _ r).consequences i _ r

end Kept

end Sys2Proof.Machine
end

section
/-! PROOFS. Commands of the heliostat table, of points and limits, receptions and sweeps keep the books and the safety of
the zones. -/

-- One proof after another: begun all at once, the proofs of the whole text outgrow the check's memory.
set_option Elab.async false

namespace Sys2Proof.Machine

/-- The books and, where `q` asks for it, the safety of the zones, with stow as it is in effect. -/
def Sound (q : Prop) (s : State) : Prop := Kept q s.stowInEffect s.stowInEffect s

namespace Kept
variable {q : Prop} {b x : Bool} {s t : State}

theorem sound (h : Kept q x x s) : Sound q s := by
  have := h.stow
  subst this
  exact h

/-- Plain writes afterwards. -/
theorem after (h : Kept q b x s) (w : Writes true true true s t) : Kept q b x t := w.kept h

theorem modSeg (h : Kept q b x s) (k : Nat) (f : Seg → Seg)
    (slots : Tab.wf Slot.reset (s.seg k).slots = true → Tab.wf Slot.reset (f (s.seg k)).slots = true := by exact id) :
    Kept q b x (s.modSeg k f) := by
  refine h.ofNext (h.books.of_tables ?_ rfl (fun _ => rfl) (fun _ => rfl) h.books.late) rfl (fun _ => rfl)
    (fun _ => .refl _) (fun _ => Nat.le_refl _) (fun _ _ _ => rfl) fun _ => id
  have htables := h.books.tables
  rw [State.tablesOk_iff] at htables ⊢
  obtain ⟨hh, hp, hz, hg, hl, hrest⟩ := htables
  refine ⟨hh, hp, hz, Tab.wf_put hg _ _, fun e he => ?_, hrest⟩
  rcases Tab.mem_put he with rfl | he
  · exact slots (Tab.forall_get_of_forall_mem (P := fun g : Seg => Tab.wf Slot.reset g.slots = true) rfl hl k)
  · exact hl e he

theorem refreshClear (h : Kept q b x s) : Kept q b x s.refreshClear := by
  have hpau := s.refreshClear_pau
  refine h.ofFrame s.refreshClear_frame (h.books.of_tables (State.refreshClear_tablesOk h.books.tables)
    s.refreshClear_hels (fun p => s.refreshClear_point p) (fun z => by rw [State.refreshClear_zone]) ?_) fun z hz => ?_
  · rw [hpau]; exact h.books.late
  · exact s.refreshClear_frame.zoneSafe_of_sublist (by rw [State.refreshClear_zone]) hz

/-- Settlements of the zones that are not safe. -/
theorem settled {u : State} (books : Books b u) (stow : u.stowInEffect = x) (zs : List Nat)
    (safe : q → ∀ z < 12, z ∉ zs → u.zoneSafe z) (segments : q → ∀ i, (u.hel i).segment ≤ 7) :
    Kept q b x (u.settleList zs) where
  books := books.settleList zs
  stow := by
    obtain ⟨-, -, -, -, hrest⟩ := State.settleList_frame zs u
    have hpau : (u.settleList zs).rest.stowInEffect = u.rest.stowInEffect := by rw [hrest]
    exact hpau.trans stow
  safe hq z hz := by
    by_cases hmem : z ∈ zs
    · exact State.zoneSafe_settleList hmem u
    · exact (settleKeeps_zoneSafe z).settleList zs (safe hq z hz hmem)
  segments hq i := by
    have hstill := congrArg (·.segment) ((State.settleList_frame zs u).1 i)
    exact (Eq.le hstill).trans (segments hq i)

/-- All zones settled: whatever the limits and the fluxes have become, every zone is safe. -/
theorem settledAll {u : State} (books : Books b u) (stow : u.stowInEffect = x)
    (segments : q → ∀ i, (u.hel i).segment ≤ 7) : Kept q b x u.settleAll :=
  settled books stow _ (fun _ _ hz hmem => absurd (List.mem_range.2 hz) hmem) segments

/-! ### The heliostat table -/

/-- A record written from operands in their ranges that is not departing and in no collection (R32, R33). -/
theorem writeRecord (h : Kept q b x s) {i : Nat} (hi : i ≤ 1999) {d : Identity} (hw : (s.hel i).writable = true)
    (hd : d.inRange = true) : Kept q b x (s.writeRecord i d) := by
  simp only [Hel.writable, Bool.and_eq_true, Bool.or_eq_true, beq_iff_eq, Option.isNone_iff_eq_none,
    Bool.not_eq_true'] at hw
  obtain ⟨hstate, hdeparting⟩ := hw
  have hseg := (Identity.inRange_ranges hd).1
  have hr := h.books.record i
  have hdeparture : (s.hel i).departureZone = none := by
    have := hr.departing.symm.trans hdeparting
    simpa using this
  unfold State.writeRecord
  dsimp only
  split
  next ha =>
    obtain ⟨hassignment, -, hstranded⟩ := hr.absent ha
    have hprimary := h.books.onAlternate_eq_false (i := i) (by rw [ha]; decide)
    exact h.setIdle (.inr hi) (by rw [ha]; decide) (by rw [ha]; decide) (fun h => by cases h) (fun h => by cases h)
      hassignment.symm rfl hdeparture.symm hstranded.symm
      { absent := fun hs => (by cases hs), assigned := fun hs => (by rcases hs with hs | hs <;> cases hs)
        aimed := fun hs => (by cases hs), alternate := fun hs => (by cases hs), stranded := fun hs => (by cases hs)
        departing := rfl, point := fun _ hs => (by cases hs), departureZone := fun _ hs => (by cases hs)
        strandedZone := fun _ hs => (by cases hs)
        stow := fun _ => ⟨(fun hs => by cases hs), (fun hs => by cases hs), fun hs => by cases hs⟩ } (fun _ => hseg)
  next ha =>
    have haimed : (s.hel i).state ≠ .onTarget := by
      rcases hstate with (h' | h') | ⟨h', -⟩ <;> rw [h'] <;> decide
    have hqueued : (s.hel i).state ≠ .queued := by
      rcases hstate with (h' | h') | ⟨h', -⟩ <;> rw [h'] <;> decide
    have hstandby : (s.hel i).state ≠ .standby := by
      rcases hstate with (h' | h') | ⟨h', -⟩ <;> rw [h'] <;> decide
    have hprimary := h.books.onAlternate_eq_false haimed
    have hstranded : (s.hel i).stranded = none := h.stranded_eq_none
      (by rcases hstate with (h' | h') | ⟨h', -⟩ <;> rw [h'] <;> decide)
      (by rcases hstate with (h' | h') | ⟨h', -⟩ <;> rw [h'] <;> decide)
    have hrecord {y : HState} {u : State} (hp : u.points = s.points) {g : Hel} (hy : g.state = y) (hg : g.assignment = (s.hel i).assignment)
        (ho : g.onAlternate = (s.hel i).onAlternate) (hst : g.stranded = (s.hel i).stranded)
        (hdep : g.departing = (s.hel i).departing) (hdz : g.departureZone = (s.hel i).departureZone)
        (h1 : y ≠ .absent) (h2 : y ≠ .onTarget) (h3 : y ≠ .queued) (h4 : y ≠ .standby) : RecordBooks b u g := by
      subst hy
      exact { absent := fun hs => absurd hs h1
              assigned := fun hs => (hs.elim h2 h3).elim
              aimed := fun hs => absurd hs h2
              alternate := fun hs => by rw [ho, hprimary] at hs; cases hs
              stranded := fun hs => by rw [hst, hstranded] at hs; cases hs
              departing := by rw [hdep, hdz]; exact hr.departing
              point := by rw [hg]; exact hr.point
              departureZone := by rw [hdz]; exact hr.departureZone
              strandedZone := by rw [hst]; exact hr.strandedZone
              stow := fun _ => ⟨h2, h3, h4⟩ }
    split
    · have hu := h.after (.unsweep .refl i)
      exact hu.setIdle (.inl ha) haimed hqueued haimed hqueued rfl hprimary rfl rfl
        (hrecord (u := s.unsweep i) (g := (s.hel i).rewritten d) rfl rfl rfl rfl rfl rfl rfl ha haimed hqueued hstandby)
        fun _ => hseg
    · have hu := h.after (.urgentRemove (.orphan (.unsweep .refl i) (s.hel i).segment i) (s.hel i).segment i)
      have hy : ∀ y : HState, y = (if (s.hel i).state = .stowed then .offline else (s.hel i).state) →
          y ≠ .absent ∧ y ≠ .onTarget ∧ y ≠ .queued ∧ y ≠ .standby := by
        rintro y rfl
        split
        · decide
        · exact ⟨ha, haimed, hqueued, hstandby⟩
      obtain ⟨h1, h2, h3, h4⟩ := hy _ rfl
      exact hu.setIdle (g' := ((s.hel i).rewritten d).readdressed) (.inl ha) haimed hqueued h2 h3 rfl hprimary rfl rfl
        (hrecord (u := ((s.unsweep i).orphan (s.hel i).segment i).urgentRemove (s.hel i).segment i)
          (g := ((s.hel i).rewritten d).readdressed) rfl rfl rfl rfl rfl rfl rfl h1 h2 h3 h4) fun _ => hseg

/-- An assignment written or removed while the heliostat stands in no list (R23, R35). -/
theorem writeAssignment (h : Kept q b x s) {i : Nat} (habsent : (s.hel i).state ≠ .absent)
    (haimed : (s.hel i).state ≠ .onTarget) (hqueued : (s.hel i).state ≠ .queued) {p : Option Nat}
    (hp : ∀ a, p = some a → s.receiverOk a = true) : Kept q b x (s.writeAssignment i p) := by
  have hhel j : ((s.writeAssignment i p).hel j).segment = (s.hel j).segment
      ∧ ((s.writeAssignment i p).hel j).pClear = (s.hel j).pClear := by
    rw [State.hel_writeAssignment]
    split
    next hj => rw [hj]; exact ⟨rfl, rfl⟩
    next => exact ⟨rfl, rfl⟩
  have hscu : (s.writeAssignment i p).scu = s.scu := by
    unfold State.writeAssignment
    dsimp only
    split <;> split <;> rfl
  refine h.ofNext (h.books.writeAssignment habsent haimed hqueued hp) ?_ (fun z => ?_) (fun z => ?_) (fun z => ?_)
    (fun z j _ => ?_) fun j => (hhel j).1.le.trans
  · rw [State.stowInEffect, State.pau_writeAssignment, State.stowInEffect]
  all_goals try rw [State.zone_writeAssignment]
  rw [State.pEff, (hhel j).1, (hhel j).2, State.shade, hscu, State.pEff, State.shade]

/-- The heliostat leaves its collection for STOWED, while stow is not in effect (R36). -/
theorem leaveForAssign (h : Kept q b x s) (i : Nat) : Kept q b x (s.leaveForAssign i) := by
  unfold State.leaveForAssign
  split
  next hi => exact h.depart hi (by decide) (by decide) (by decide) fun _ => by decide
  next hi => exact h.dequeue hi (by decide) (by decide) (by decide) fun _ => by decide
  next hi =>
    refine h.setState (by rw [hi]; decide) (by rw [hi]; decide) (by rw [hi]; decide) (by decide) (by decide) (by decide)
      (fun _ => by decide) fun hs => ?_
    rw [h.stranded_eq_none (by rw [hi]; decide) (by rw [hi]; decide)] at hs
    cases hs
  all_goals exact h

end Kept

/-- Where an ASSIGN's move leaves the heliostat: in no collection. -/
theorem State.state_leaveForAssign (s : State) (i : Nat) : ((s.leaveForAssign i).hel i).state =
    match (s.hel i).state with
    | .onTarget | .queued | .standby => .stowed
    | x => x := by
  unfold State.leaveForAssign
  cases hi : (s.hel i).state with
  | onTarget => dsimp only; rw [State.hel_depart, if_pos rfl]
  | queued => dsimp only; rw [State.hel_dequeue, if_pos rfl]
  | standby => dsimp only; rw [State.hel_modHel, if_pos rfl]
  | _ => exact hi

theorem State.receiverOk_leaveForAssign (s : State) (i p : Nat) :
    (s.leaveForAssign i).receiverOk p = s.receiverOk p := by
  have hvalid : ((s.leaveForAssign i).point p).valid = (s.point p).valid := by
    unfold State.leaveForAssign
    split
    · exact congrArg (·.valid) ((s.depart_frame i _).2.2.1 p)
    all_goals rfl
  rw [State.receiverOk, State.receiverOk, hvalid]

namespace Kept
variable {q : Prop} {b x : Bool} {s t : State}

/-- ASSIGN of a valid receiver point, or of NONE, to a record that is present (R36, R37). -/
theorem assignTo (h : Kept q x x s) {i : Nat} (habsent : (s.hel i).state ≠ .absent) {p : Option Nat}
    (hp : ∀ a, p = some a → s.receiverOk a = true) : Kept q x x (s.assignTo i p) := by
  have hwritten {u : State} (hu : Kept q x x u) (h1 : (u.hel i).state ≠ .absent) (h2 : (u.hel i).state ≠ .onTarget)
      (h3 : (u.hel i).state ≠ .queued) (h4 : ∀ a, p = some a → u.receiverOk a = true) :
      Kept q x x (((u.writeAssignment i p).modHel i Hel.assignCleared).unsweep i) := by
    have hw := hu.writeAssignment h1 h2 h3 h4
    refine (hw.modHel_plain i Hel.assignCleared ?_).after (.unsweep .refl i)
    have hprimary : ((u.writeAssignment i p).hel i).onAlternate = false :=
      hw.books.onAlternate_eq_false (by rw [State.hel_writeAssignment, if_pos rfl]; exact h2)
    simp only [Hel.booked, Hel.assignCleared, hprimary]
  have hhel {u : State} : (((u.writeAssignment i p).modHel i Hel.assignCleared).unsweep i).hel i
      = ({ u.hel i with assignment := p } : Hel).assignCleared := by
    change ((u.writeAssignment i p).modHel i Hel.assignCleared).hel i = _
    rw [State.hel_modHel, if_pos rfl, State.hel_writeAssignment, if_pos rfl]
  unfold State.assignTo
  dsimp only
  by_cases hstow : s.stowInEffect = true
  · have hx : x = true := h.stow.symm.trans hstow
    obtain ⟨h1, h2, -⟩ := (h.books.record i).stow hx
    simp only [hstow, Bool.not_true, Bool.false_eq_true, if_false, Bool.false_and]
    exact hwritten h habsent h1 h2 hp
  · rw [Bool.not_eq_true] at hstow
    have hx : x = false := h.stow.symm.trans hstow
    have hleft := h.leaveForAssign i
    have hstate := s.state_leaveForAssign i
    have hother : ((s.leaveForAssign i).hel i).state ≠ .absent ∧ ((s.leaveForAssign i).hel i).state ≠ .onTarget
        ∧ ((s.leaveForAssign i).hel i).state ≠ .queued := by
      rw [hstate]
      cases hi : (s.hel i).state with
      | absent => exact absurd hi habsent
      | _ => exact ⟨by decide, by decide, by decide⟩
    obtain ⟨h1, h2, h3⟩ := hother
    have hset := hwritten hleft h1 h2 h3 fun a ha => (s.receiverOk_leaveForAssign i a).trans (hp a ha)
    simp only [hstow, Bool.not_false, if_true, Bool.true_and]
    split
    next hq =>
      simp only [Bool.and_eq_true, beq_iff_eq] at hq
      refine hset.enqueue hx (by rw [hq.2]; decide) (by rw [hq.2]; decide) (by rw [hq.2]; decide) ?_ ?_
      · rw [hhel]; exact hq.1
      · exact hset.stranded_eq_none (by rw [hq.2]; decide) (by rw [hq.2]; decide)
    next => exact hset

/-- A record that is emptied leaves nothing behind (R34). -/
theorem retireRecord (h : Kept q b x s) {i : Nat} (habsent : (s.hel i).state ≠ .absent)
    (haimed : (s.hel i).state ≠ .onTarget) (hqueued : (s.hel i).state ≠ .queued)
    (hstranded : (s.hel i).stranded = none) : Kept q b x (s.retireRecord i) := by
  have hwritten := h.writeAssignment habsent haimed hqueued (p := none) fun _ ha => by cases ha
  have hclear := hwritten.clearDeparture i
  have hhel := (s.writeAssignment i none).hel_clearDeparture i i
  rw [State.hel_writeAssignment, if_pos rfl] at hhel
  unfold State.retireRecord
  dsimp only
  generalize (s.writeAssignment i none).clearDeparture i = u at hclear hhel
  have hfields : (u.hel i).state = (s.hel i).state ∧ (u.hel i).assignment = none ∧ (u.hel i).stranded = none := by
    rw [hhel]
    split
    · exact ⟨rfl, rfl, hstranded⟩
    · exact ⟨rfl, rfl, hstranded⟩
  have hdeparture : (u.hel i).departureZone = none := by
    rw [hhel]
    split
    · rfl
    next hd =>
      have := (h.books.record i).departing
      have hfalse : (s.hel i).departing = false := by simpa using hd
      rw [hfalse] at this
      simpa using this.symm
  obtain ⟨hstate, hassignment, hst⟩ := hfields
  have hu := hclear.after (.unsweep (.orphan (.urgentRemove .refl (s.hel i).segment i) (s.hel i).segment i) i)
  exact hu.setIdle (g' := Hel.empty) (.inl (hstate.trans_ne habsent)) (hstate.trans_ne haimed) (hstate.trans_ne hqueued)
    (by decide) (by decide) hassignment.symm rfl hdeparture.symm hst.symm
    { absent := fun _ => ⟨rfl, rfl, rfl⟩, assigned := fun hs => (by rcases hs with hs | hs <;> cases hs)
      aimed := fun hs => (by cases hs), alternate := fun hs => (by cases hs), stranded := fun hs => (by cases hs)
      departing := rfl, point := fun _ hs => (by cases hs), departureZone := fun _ hs => (by cases hs)
      strandedZone := fun _ hs => (by cases hs), stow := fun _ => ⟨by decide, by decide, by decide⟩ }
    fun _ => by decide

end Kept

end Sys2Proof.Machine
end

section
/-! PROOFS. Writes of points and limits, receptions, sweeps, protective actions and sensors keep the books and the safety
of the zones. -/

-- One proof after another: begun all at once, the proofs of the whole text outgrow the check's memory.
set_option Elab.async false

namespace Sys2Proof.Machine

/-! ### Points -/

/-- A tally depends on what the records give. -/
theorem State.tally_congr_hel {s : State} (hs : Tab.wf Hel.empty s.hels = true) {f g : Hel → Nat}
    (hfg : ∀ i, f (s.hel i) = g (s.hel i)) : s.tally f = s.tally g := by
  unfold State.tally
  congr 1
  refine List.map_congr_left fun e he => ?_
  rw [← Tab.get_of_mem hs he]
  exact hfg e.1

/-- A point rewritten with its counts: where no record reads what changes, the books stay right (R49, R50). -/
theorem Books.setPoint {b : Bool} {s : State} (h : Books b s) {p : Nat} {a : Point}
    (hcounts : a.inUse = (s.point p).inUse ∧ a.diverted = (s.point p).diverted ∧ a.altLoad = (s.point p).altLoad)
    (hzone : a.zone < 12) (halternate : ∀ q, a.alternate = some q → q ≤ 95)
    (hvalid : a.valid = false → (s.point p).inUse = 0 ∧ (s.point p).altLoad = 0)
    (hmoved : a.zone = (s.point p).zone ∨ ((s.point p).inUse = 0 ∧ (s.point p).altLoad = 0))
    (hdiverted : a.alternate = (s.point p).alternate ∨ (s.point p).diverted = 0) :
    Books b (s.modPoint p fun _ => a) := by
  have hpoint y : (s.modPoint p fun _ => a).point y = if y = p then a else s.point y := s.point_modPoint p y _
  have hnone {f : Nat} {c : Bool} (hf : f = 0) (hle : one c ≤ f) : c = false := by
    cases c with
    | false => rfl
    | true => rw [hf] at hle; exact absurd hle (by decide)
  have haltOf i (hon : (s.hel i).onAlternate = true) :
      (s.modPoint p fun _ => a).alternateOf (s.hel i) = s.alternateOf (s.hel i) := by
    have hp : (s.hel i).assignment = some p → a.alternate = (s.point p).alternate := fun ha => by
      refine hdiverted.resolve_right fun hd => ?_
      have := hnone hd (h.one_le_diverted i p)
      rw [hon, ha] at this
      simp at this
    simp only [State.alternateOf]
    cases ha : (s.hel i).assignment with
    | none => rfl
    | some y =>
      simp only [Option.bind_some, hpoint]
      split
      next hy => rw [hy] at ha ⊢; exact hp ha
      next => rfl
  have hzoneOf y (hused : (s.point p).inUse = 0 ∧ (s.point p).altLoad = 0 → y ≠ p) :
      ((s.modPoint p fun _ => a).point y).zone = (s.point y).zone := by
    rw [hpoint]
    split
    next hy => rw [hy]; exact hmoved.resolve_right fun h0 => hused h0 hy
    next => rfl
  have hassigned i : (s.modPoint p fun _ => a).assignedZone (s.hel i) = s.assignedZone (s.hel i) := by
    simp only [State.assignedZone]
    cases ha : (s.hel i).assignment with
    | none => rfl
    | some y =>
      refine hzoneOf y fun h0 hy => ?_
      have := hnone h0.1 (h.one_le_inUse i p)
      rw [ha, hy] at this
      simp at this
  have hjoin i : (s.modPoint p fun _ => a).joinZone (s.hel i) = s.joinZone (s.hel i) := by
    cases hon : (s.hel i).onAlternate with
    | false => rw [State.joinZone_of_primary _ hon, State.joinZone_of_primary _ hon, hassigned]
    | true =>
      simp only [State.joinZone, State.aimedPoint, hon, if_true, haltOf i hon]
      cases hq : s.alternateOf (s.hel i) with
      | none => rfl
      | some y =>
        refine hzoneOf y fun h0 hy => ?_
        have := hnone h0.2 (h.one_le_altLoad i p)
        rw [hon, hq, hy] at this
        simp at this
  refine ⟨?_, fun i => ?_, fun y => ?_, fun z => ?_, h.index, h.late⟩
  · exact (Write.point (p := true) (q := false) (r := false) s p (fun _ => a) rfl).tablesOk h.tables
  · have hr := h.record i
    refine { hr with alternate := fun hon => ?_ }
    rw [State.modPoint_hel] at hon ⊢
    rw [haltOf i hon]
    exact hr.alternate hon
  · have hold := h.point y
    have htally : (s.modPoint p fun _ => a).tally (fun g => one (g.onAlternate
          && (s.modPoint p fun _ => a).alternateOf g == some y))
        = s.tally fun g => one (g.onAlternate && s.alternateOf g == some y) := by
      rw [State.tally_modPoint]
      refine State.tally_congr_hel h.hels fun i => ?_
      cases hon : (s.hel i).onAlternate with
      | false => rfl
      | true => rw [haltOf i hon]
    have hplace : ((s.modPoint p fun _ => a).point y).zone < 12
        ∧ (∀ q, ((s.modPoint p fun _ => a).point y).alternate = some q → q ≤ 95)
        ∧ (((s.modPoint p fun _ => a).point y).valid = false → (s.point y).inUse = 0 ∧ (s.point y).altLoad = 0)
        ∧ ((s.modPoint p fun _ => a).point y).inUse = (s.point y).inUse
        ∧ ((s.modPoint p fun _ => a).point y).diverted = (s.point y).diverted
        ∧ ((s.modPoint p fun _ => a).point y).altLoad = (s.point y).altLoad := by
      rw [hpoint]
      split
      next hy => subst hy; exact ⟨hzone, halternate, hvalid, hcounts⟩
      next => exact ⟨hold.zone, hold.alternate, hold.invalid, rfl, rfl, rfl⟩
    obtain ⟨h1, h2, h3, h4, h5, h6⟩ := hplace
    exact ⟨h1, h2, fun hv => by rw [h4, h6]; exact h3 hv, h4.trans hold.inUse, h5.trans hold.diverted,
      h6.trans (hold.altLoad.trans htally.symm)⟩
  · have hold := h.zone z
    refine { hold with join := fun i => ?_, queue := fun i => ?_ }
    · rw [State.modPoint_hel, hjoin]; exact hold.join i
    · rw [State.modPoint_hel, hassigned]; exact hold.queue i

/-- No record is assigned to a standby point, or aimed at one (R35, R48). -/
theorem Books.unused_standby {b : Bool} {s : State} (h : Books b s) {p : Nat} (hp : 95 < p) :
    (s.point p).inUse = 0 ∧ (s.point p).altLoad = 0 ∧ (s.point p).diverted = 0 := by
  have hassigned i : (s.hel i).assignment ≠ some p := fun ha => absurd ((h.record i).point p ha) (by omega)
  have halternate i : s.alternateOf (s.hel i) ≠ some p := fun ha => by
    obtain ⟨y, -, hy⟩ := Option.bind_eq_some_iff.1 ha
    exact absurd ((h.point y).alternate p hy) (by omega)
  refine ⟨(h.point p).inUse.trans ?_, (h.point p).altLoad.trans ?_, (h.point p).diverted.trans ?_⟩
  all_goals refine State.tally_eq_zero h.hels fun i => ?_
  · simp [hassigned i, one]
  · simp [halternate i, one]
  · simp [hassigned i, one]

/-- A check that passes hands on to the next one. -/
theorem ite_some_eq_none_iff {α : Type} {c : Prop} [Decidable c] {r : α} {e : Option α} :
    (if c then some r else e) = none ↔ ¬ c ∧ e = none := by
  by_cases hc : c <;> simp [hc]

/-- What the checks of WRITE_AIMPOINT leave (R49). -/
theorem State.aimpointRefusal_eq_none {s : State} {p zone : Nat} {valid : Bool} {pos : Vec3} {alt : Option Nat}
    (h : s.aimpointRefusal p valid pos zone alt = none) (hp : p ≤ 95) :
    (valid = true → zone ≤ 11 ∧ s.alternateOk p zone alt = true)
      ∧ ((s.point p).valid = true → valid = false ∨ zone ≠ (s.point p).zone →
          (s.point p).inUse = 0 ∧ (s.point p).altLoad = 0)
      ∧ ((if valid = true then alt else none) = (s.point p).alternate ∨ (s.point p).diverted = 0) := by
  unfold State.aimpointRefusal at h
  simp only [if_neg (show ¬ 95 < p by omega), ite_some_eq_none_iff] at h
  obtain ⟨-, -, hzone, halt, hused, hdiverted, -⟩ := h
  simp only [Bool.and_eq_true, Bool.or_eq_true, Bool.not_eq_true', bne_iff_ne, decide_eq_true_eq, not_and_or, not_or,
    Nat.not_lt, Nat.le_zero, Bool.not_eq_false, ne_eq, not_not] at hzone halt hused hdiverted
  refine ⟨fun hv => ⟨hzone.resolve_left (by simp [hv]), halt.resolve_left (by simp [hv])⟩, fun hva hmove => ?_, hdiverted⟩
  rcases hused with (hno | hno) | hno
  · exact absurd hva hno
  · exact (hmove.elim (fun hv => by simp [hv] at hno) fun hz => absurd hno.2 hz)
  · exact hno

namespace Kept
variable {q : Prop} {b x : Bool} {s t : State}

/-- A point written after its checks (R49, R50). -/
theorem writePoint (h : Kept q b x s) {p zone : Nat} {valid : Bool} {pos : Vec3} {alt : Option Nat}
    (hok : s.aimpointRefusal p valid pos zone alt = none) : Kept q b x (s.writePoint p valid pos zone alt) := by
  have hold := h.books.point p
  have hbooks : Books b (s.writePoint p valid pos zone alt) := by
    change Books b (s.modPoint p fun _ =>
      if !valid then { s.point p with valid := false, alternate := none }
      else if 95 < p then { s.point p with valid := true, pos := pos }
      else { s.point p with valid := true, pos := pos, zone := zone, alternate := alt })
    by_cases hp : 95 < p
    · obtain ⟨huse, hload, hdiverted⟩ := h.books.unused_standby hp
      rw [if_pos hp]
      cases valid with
      | false => exact h.books.setPoint ⟨rfl, rfl, rfl⟩ hold.zone (fun _ hq => by cases hq) (fun _ => ⟨huse, hload⟩) (.inl rfl) (.inr hdiverted)
      | true => exact h.books.setPoint ⟨rfl, rfl, rfl⟩ hold.zone hold.alternate (fun _ => ⟨huse, hload⟩) (.inl rfl) (.inr hdiverted)
    · obtain ⟨hzone, hmoved, hdiverted⟩ := State.aimpointRefusal_eq_none hok (Nat.not_lt.1 hp)
      rw [if_neg hp]
      have hunused : valid = false ∨ zone ≠ (s.point p).zone → (s.point p).inUse = 0 ∧ (s.point p).altLoad = 0 := fun hmove => by
        cases hv : (s.point p).valid with
        | true => exact hmoved hv hmove
        | false => exact hold.invalid hv
      cases valid with
      | false => exact h.books.setPoint ⟨rfl, rfl, rfl⟩ hold.zone (fun _ hq => by cases hq) (fun _ => hunused (.inl rfl)) (.inl rfl) hdiverted
      | true =>
        obtain ⟨hle, halt⟩ := hzone rfl
        refine h.books.setPoint ⟨rfl, rfl, rfl⟩ (Nat.lt_succ_of_le hle) (fun y hy => ?_) (fun hv => by cases hv) ?_ hdiverted
        · cases alt with
          | none => cases hy
          | some z =>
            cases hy
            simp only [State.alternateOk, State.receiverOk, Bool.and_eq_true, decide_eq_true_eq] at halt
            exact halt.1.2.1
        · by_cases hz : zone = (s.point p).zone
          · exact .inl hz
          · exact .inr (hunused (.inr hz))
  exact h.ofNext hbooks rfl (fun _ => rfl) (fun _ => .refl _) (fun _ => Nat.le_refl _) (fun _ _ _ => rfl) fun _ => id

/-! ### Limits -/

/-- A zone's settings written, and the zone settled (R53, R54). -/
theorem limit (h : Kept q b x s) (z : Nat) (f : Zone → Zone)
    (hf : ∀ zn : Zone, (f zn).stranded = zn.stranded ∧ (f zn).joinList = zn.joinList ∧ (f zn).queue = zn.queue
      ∧ (f zn).pendingDepartures = zn.pendingDepartures) : Kept q b x ((s.modZone z f).settle z) := by
  have hzone y : (s.modZone z f).zone y = if y = z then f (s.zone z) else s.zone y := s.zone_modZone z y f
  have hlists y : ((s.modZone z f).zone y).stranded = (s.zone y).stranded
      ∧ ((s.modZone z f).zone y).joinList = (s.zone y).joinList ∧ ((s.modZone z f).zone y).queue = (s.zone y).queue
      ∧ ((s.modZone z f).zone y).pendingDepartures = (s.zone y).pendingDepartures := by
    rw [hzone]
    split
    next hy => subst hy; exact hf _
    next => exact ⟨rfl, rfl, rfl, rfl⟩
  have hbooks : Books b (s.modZone z f) := by
    refine ⟨State.tablesOk_modZone h.books.tables z f, fun i => RecordBooks.of_place (s := s) (t := s.modZone z f) (fun _ => rfl) (h.books.record i), fun p => ?_,
      fun y => ?_, h.books.index, h.books.late⟩
    · obtain ⟨h1, h2, h3, h4, h5, h6⟩ := h.books.point p
      exact ⟨h1, h2, h3, h4, h5, h6⟩
    · obtain ⟨h1, h2, h3, h4, h5, h6⟩ := h.books.zone y
      obtain ⟨e1, e2, e3, e4⟩ := hlists y
      exact ⟨e2 ▸ h1, e3 ▸ h2, by rw [e2]; exact h3, by rw [e3]; exact h4, e4.trans h5, e1.trans h6⟩
  refine settled hbooks h.stow [z] (fun hq y hy hmem => ?_) h.segments
  have hne : y ≠ z := fun hyz => hmem (hyz ▸ List.mem_singleton_self y)
  refine State.zoneSafe_of_sublist (s := s) ?_ ?_ ?_ (fun _ _ => rfl) (h.safe hq y hy) <;> rw [hzone, if_neg hne]

/-! ### Receptions -/

theorem maintReturn (h : Kept q b x s) (k : Nat) (result : MaintResult) (reply : Option Reply) :
    Kept q b x (s.maintReturn k result reply) :=
  h.after (.maintReturn .refl k result reply)

theorem missOutcome (h : Kept q b x s) (k : Nat) (f : Frame) : Kept q b x (s.missOutcome k f) := by
  have hended := h.after (.emptyFrame .refl k)
  have hmissed : Kept q b x (match f.heliostat with
      | some i =>
        if f.orphaned then s.emptyFrame k
        else ((s.emptyFrame k).missOne i).modSeg k fun g => { g with missed := min 65535 (g.missed + 1) }
      | none => s.emptyFrame k) := by
    split
    · exact ite hended ((hended.missOne _).modSeg k _)
    · exact hended
  unfold State.missOutcome
  dsimp only
  exact (ite (hmissed.maintReturn k _ _) hmissed).refreshClear

theorem countReception (h : Kept q b x s) (k : Nat) (f : Frame) (corrupt : Bool) :
    Kept q b x (s.countReception k f corrupt) := by
  unfold State.countReception
  exact ite (h.missOutcome k _) (h.modSeg k _)

theorem corruptReception (h : Kept q b x s) (k : Nat) (f : Frame) : Kept q b x (s.corruptReception k f) :=
  (h.after (.corruptCounters .refl k)).countReception k f true

theorem staleReply (h : Kept q b x s) (k : Nat) (f : Frame) : Kept q b x (s.staleReply k f) :=
  (h.modSeg k _).countReception k f false

theorem qualifyingInverted (h : Kept q b x s) (k : Nat) (f : Frame) : Kept q b x (s.qualifyingInverted k f) := by
  unfold State.qualifyingInverted
  exact (ite ((h.modSeg k _).raiseD _) (h.modSeg k _)).countReception k f false

theorem goodReply (h : Kept q x x s) (k : Nat) (f : Frame) (r : GoodReply) : Kept q x x (s.goodReply k f r) := by
  have hended := h.modSeg k fun g => { g with frame := none, errorRun := 0, invertedRun := 0 }
  have hanswered : Kept q x x (match f.heliostat with
      | some i =>
        if f.orphaned then s.modSeg k fun g => { g with frame := none, errorRun := 0, invertedRun := 0 }
        else ((s.modSeg k fun g => { g with frame := none, errorRun := 0, invertedRun := 0 }).applyReply i f r).modSeg k
          fun g => { g with answered := min 65535 (g.answered + 1) }
      | none => s.modSeg k fun g => { g with frame := none, errorRun := 0, invertedRun := 0 }) := by
    split
    · exact ite hended ((hended.applyReply _ f r).modSeg k _)
    · exact hended
  unfold State.goodReply
  dsimp only
  exact (ite (ite (hanswered.maintReturn k _ _) (hanswered.maintReturn k _ _)) hanswered).refreshClear

theorem classify (h : Kept q x x s) (k : Nat) (f : Frame) (bytes : List Byte) : Kept q x x (s.classify k f bytes) := by
  unfold State.classify
  split
  · split
    · exact h
    · exact h.corruptReception k f
    · split
      · exact ite (h.qualifyingInverted k f) (h.corruptReception k f)
      · exact h
    · split
      · exact ite (h.corruptReception k f) (ite (h.staleReply k f) (h.goodReply k f _))
      · exact h
  · exact h

/-! ### Sweeps -/

/-- A commit of contributions, whatever they are (R73). -/
theorem books_commit {s : State} (h : Books b s) (is : List Nat) :
    Books b { s with hels := Tab.update Hel.empty (fun _ => Hel.commit) is s.hels } := by
  induction is generalizing s with
  | nil => exact h
  | cons i is ih =>
    refine ih (s := s.modHel i Hel.commit) ?_
    have hfields (g : Hel) : g.commit.state = g.state ∧ g.commit.assignment = g.assignment
        ∧ g.commit.onAlternate = g.onAlternate ∧ g.commit.stranded = g.stranded ∧ g.commit.departing = g.departing
        ∧ g.commit.departureZone = g.departureZone := by
      unfold Hel.commit
      split <;> exact ⟨rfl, rfl, rfl, rfl, rfl, rfl⟩
    obtain ⟨h1, h2, h3, h4, h5, h6⟩ := hfields (s.hel i)
    have halt : s.alternateOf (s.hel i).commit = s.alternateOf (s.hel i) := by
      rw [State.alternateOf, State.alternateOf, h2]
    have hr := h.record i
    refine h.moved (State.tablesOk_setHel h.tables i _) (s.hel_modHel i · Hel.commit) (.of_points (fun _ => rfl) h2 h3)
      (h.zonesFollow_of_lists (fun _ => ⟨rfl, rfl⟩) h1 h2 h3 (fun z => by rw [h6]; rfl)
        fun z => by simp only [Hel.strandedIn, h4]; rfl) ?_ (fun ha => h.index i (h1 ▸ ha)) rfl
    constructor <;> simp only [h1, h2, h3, h4, h5, h6, halt]
    exacts [hr.absent, hr.assigned, hr.aimed, hr.alternate, hr.stranded, hr.departing, hr.point, hr.departureZone,
      hr.strandedZone, hr.stow]

theorem segment_update_commit (t : Tab Hel) (is : List Nat) (j : Nat) :
    (Tab.get Hel.empty (Tab.update Hel.empty (fun _ => Hel.commit) is t) j).segment = (Tab.get Hel.empty t j).segment := by
  induction is generalizing t with
  | nil => rfl
  | cons i is ih =>
    refine (ih (Tab.put Hel.empty t i (Tab.get Hel.empty t i).commit)).trans ?_
    rw [Tab.get_put]
    split
    next hj => rw [hj]; unfold Hel.commit; split <;> rfl
    next => rfl

theorem finishSweep (h : Kept q b x s) : Kept q b x s.finishSweep := by
  unfold State.finishSweep
  dsimp only
  have hcount : Kept q b x { s with sweep := { s.sweep with inFlight := false, count := (s.sweep.count + 1) % 65536 } } :=
    h.after (.units .refl { units := State.unitsOk_of fun r => { r with sweep := Nat.le_of_lt_succ (Nat.mod_lt _ (by decide)) } })
  generalize ({ s with sweep := { s.sweep with inFlight := false, count := (s.sweep.count + 1) % 65536 } } : State) = u
    at hcount
  have hsettled : Kept q b x u.commit.settleAll :=
    settledAll (u := u.commit) (books_commit hcount.books _) hcount.stow
      fun hq i => (segment_update_commit u.hels u.present i).le.trans (hcount.segments hq i)
  exact (hsettled.raiseD _).after (.startRsg .refl)

theorem completeSweep (h : Kept q b x s) (first : Byte) : Kept q b x (s.completeSweep first) := by
  have hall ks ks' : Kept q b x (((s.accrue ks).finishSweep).accrue ks').refreshClear :=
    (((h.accrue ks).finishSweep).accrue ks').refreshClear
  unfold State.completeSweep
  dsimp only
  exact hall _ _

theorem startSweep (h : Kept q b x s) : Kept q b x s.startSweep := by
  have hstarted : Kept q b x { s with
      snapshot := some s.sun
      sweep := { s.sweep with inFlight := true, remaining := s.present, lastVisited := none } } :=
    h.after (.units .refl {
      units := State.unitsOk_of fun r => { r with snapshot := fun v hv => by cases hv; exact r.sun }
      sun := fun hu => ⟨hu.1, fun v hv => by cases hv; exact hu.1⟩ })
  unfold State.startSweep
  dsimp only
  exact ite (hstarted.completeSweep _) hstarted

/-! ### Sensors -/

/-- Contributions that changed by shade or SHF, and the zones of their members settled. -/
theorem reshaded (h : Kept q b x s) {u : State} (books : Books b u) (stow : u.stowInEffect = s.stowInEffect)
    (hhels : u.hels = s.hels) (hzones : u.zones = s.zones) (zs : List Nat)
    (hflux : q → ∀ z < 12, z ∉ zs → ∀ i ∈ (s.zone z).joinList, u.pEff (s.hel i) = s.pEff (s.hel i)) :
    Kept q b x (u.settleList zs) := by
  have hhel i : u.hel i = s.hel i := by rw [State.hel, hhels, State.hel]
  have hzone z : u.zone z = s.zone z := by rw [State.zone, hzones, State.zone]
  refine settled books (stow.trans h.stow) zs (fun hq z hz hmem => ?_) fun hq i => by rw [hhel]; exact h.segments hq i
  refine State.zoneSafe_of_sublist (by rw [hzone]) (by rw [hzone]) (by rw [hzone]) (fun i hi => ?_) (h.safe hq z hz)
  rw [hhel]
  exact hflux hq z hz hmem i (hzone z ▸ hi)

/-- A segment's shade changed, and the zones concerned settled (R74). -/
theorem shadeSettle (h : Kept q b x s) (k : Nat) (shaded : Bool) : Kept q b x (s.shadeSettle k shaded) := by
  unfold State.shadeSettle
  dsimp only
  have hbooks : Books b (s.modShade k fun g => { g with shaded := shaded }) :=
    h.books.of_tables ((Write.shade (p := true) (q := true) (r := false) s k _ (.inl rfl)).tablesOk h.books.tables) rfl
      (fun _ => rfl) (fun _ => rfl) h.books.late
  refine h.reshaded hbooks rfl rfl rfl _ fun _ z hz hmem i hi => ?_
  have hne : (s.hel i).segment ≠ k := fun hseg => hmem <| List.mem_filter.2 ⟨List.mem_range.2 hz, by
    refine List.any_eq_true.2 ⟨i, List.mem_append_left _ hi, ?_⟩
    simpa using hseg⟩
  have hshade : (s.modShade k fun g => { g with shaded := shaded }).shade (s.hel i).segment = s.shade (s.hel i).segment := by
    rw [State.shade_modShade, if_neg hne]
  rw [State.pEff, hshade]
  rfl

theorem rederive (h : Kept q b x s) (k : Nat) : Kept q b x (s.rederive k) := by
  unfold State.rederive
  exact ite h (h.shadeSettle k _)

theorem rederiveList (h : Kept q b x s) (ks : List Nat) : Kept q b x (s.rederiveList ks) :=
  foldl (fun _ k hu => hu.rederive k) ks h

theorem reshade (h : Kept q b x s) (k : Nat) : Kept q b x (s.reshade k) := (h.rederiveList _).refreshClear

theorem modChannel (h : Kept q b x s) (k : Nat) (f : Channel → Channel) : Kept q b x (s.modChannel k f) := by
  refine h.ofNext (h.books.of_tables ?_ rfl (fun _ => rfl) (fun _ => rfl) h.books.late) rfl (fun _ => rfl)
    (fun _ => .refl _) (fun _ => Nat.le_refl _) (fun _ _ _ => rfl) fun _ => id
  have htables := h.books.tables
  rw [State.tablesOk_iff] at htables ⊢
  obtain ⟨hh, hp, hz, hg, hl, ht, hc, hd⟩ := htables
  exact ⟨hh, hp, hz, hg, hl, ht, Tab.wf_put hc _ _, hd⟩

theorem qualify (h : Kept q b x s) (k : Nat) (start : Millis) : Kept q b x (s.qualify k start) := by
  unfold State.qualify State.shadeOnset State.shadeEnd
  exact ite ((ite (h.modChannel k _) ((h.modChannel k _).raiseD _)).reshade k) ((h.modChannel k _).reshade k)

theorem sampleSensor (h : Kept q b x s) (k : Nat) (level : Bool) : Kept q b x (s.sampleSensor k level) := by
  unfold State.sampleSensor
  dsimp only
  split
  · exact h.modChannel k _
  · split
    · exact ite (h.qualify k _) (h.modChannel k _)
    · exact ite (h.qualify k _) h

/-- A new SHF, and the zones concerned with a shaded segment settled (R75). -/
theorem setShf (h : Kept q b x s) (f : Nat) : Kept q b x (s.setShf f) := by
  have hbooks : Books b { s with scu := { s.scu with shf := f } } :=
    h.books.of_tables h.books.tables rfl (fun _ => rfl) (fun _ => rfl) h.books.late
  have hshaded (hq : q) i (hs : (s.shade (s.hel i).segment).shaded = true) : (s.hel i).segment ∈ s.shadedSegs :=
    List.mem_filter.2 ⟨List.mem_range.2 (Nat.lt_succ_of_le (h.segments hq i)), hs⟩
  have hflux i (hs : (s.shade (s.hel i).segment).shaded ≠ true) :
      { s with scu := { s.scu with shf := f } }.pEff (s.hel i) = s.pEff (s.hel i) :=
    (if_neg hs).trans (if_neg hs).symm
  unfold State.setShf
  dsimp only
  split
  next hf => subst hf; exact h
  next hf =>
    unfold State.shfSettle
    split
    next hempty =>
      refine h.reshaded hbooks rfl rfl rfl [] fun hq z _ _ i _ => hflux i fun hs => ?_
      exact List.ne_nil_of_mem (hshaded hq i hs) (List.isEmpty_iff.1 hempty)
    next =>
      refine h.reshaded hbooks rfl rfl rfl _ fun hq z hz hmem i hi => hflux i fun hs => hmem ?_
      refine List.mem_filter.2 ⟨List.mem_range.2 hz, List.any_eq_true.2 ⟨i, List.mem_append_left _ hi, ?_⟩⟩
      exact decide_eq_true (hshaded hq i hs)

end Kept

end Sys2Proof.Machine
end

section
/-! PROOFS. Stow, defocus, deadline, supervision and SET_SHADE keep the books and the safety of the zones. -/

-- One proof after another: begun all at once, the proofs of the whole text outgrow the check's memory.
set_option Elab.async false

namespace Sys2Proof.Machine

/-! ### The present records -/

theorem State.mem_present_of_ne {s : State} {i : Nat} (h : (s.hel i).state ≠ .absent) : i ∈ s.present := by
  have hlisted : (i, s.hel i) ∈ s.hels :=
    Tab.mem_of_get_ne (d := Hel.empty) fun he => h (by rw [show s.hel i = Hel.empty from he]; rfl)
  exact List.mem_map.2 ⟨_, List.mem_filter.2 ⟨hlisted, by simpa using h⟩, rfl⟩

theorem State.mem_present_iff {s : State} (hs : Tab.wf Hel.empty s.hels = true) {i : Nat} :
    i ∈ s.present ↔ (s.hel i).state ≠ .absent := by
  refine ⟨fun hi => ?_, State.mem_present_of_ne⟩
  obtain ⟨e, he, rfl⟩ := List.mem_map.1 hi
  obtain ⟨hmem, hstate⟩ := List.mem_filter.1 he
  rw [show s.hel e.1 = e.2 from Tab.get_of_mem hs hmem]
  simpa using hstate

theorem State.present_nodup {s : State} (hs : Tab.wf Hel.empty s.hels = true) : s.present.Nodup := by
  have hpair := ((Tab.wf_iff _ _).1 hs).2
  exact List.pairwise_map.2 ((hpair.filter _).imp fun h => Nat.ne_of_lt h)

/-- The table holds 2000 records (R21). -/
theorem Books.length_present_le {b : Bool} {s : State} (h : Books b s) : s.present.length ≤ 2000 := by
  have hsub : s.present ⊆ List.range 2000 := fun i hi =>
    List.mem_range.2 (Nat.lt_succ_of_le (h.index i ((State.mem_present_iff h.hels).1 hi)))
  have hle := ((State.present_nodup h.hels).subperm hsub).length_le
  rwa [List.length_range] at hle

theorem sum_one_eq_count (l : List Nat) (a : Nat) : (l.map fun z => one (some a == some z)).sum = l.count a := by
  induction l with
  | nil => rfl
  | cons z l ih =>
    rw [List.map_cons, List.sum_cons, ih, List.count_cons, one_some_beq_some, Nat.add_comm]
    simp only [beq_iff_eq]

/-- A departing record is counted in one zone at most. -/
theorem sum_one_departureZone_le (o : Option Nat) (n : Nat) :
    ((List.range n).map fun z => one (o == some z)).sum ≤ one o.isSome := by
  cases o with
  | none =>
    refine Nat.le_of_eq (List.sum_eq_zero fun y hy => ?_)
    obtain ⟨z, -, rfl⟩ := List.mem_map.1 hy
    rfl
  | some a =>
    rw [sum_one_eq_count]
    exact List.nodup_iff_count_le_one.1 List.nodup_range a

/-- Figures summed over zones and records, in either order. -/
theorem sum_map_tally_le {s : State} (f : Nat → Hel → Nat) (g : Hel → Nat) (zs : List Nat)
    (hfg : ∀ h, (zs.map fun z => f z h).sum ≤ g h) : (zs.map fun z => s.tally (f z)).sum ≤ s.tally g := by
  unfold State.tally
  induction s.hels with
  | nil => simp
  | cons e t ih =>
    simp only [List.map_cons, List.sum_cons, List.sum_map_add]
    exact Nat.add_le_add (hfg _) ih

/-- A tally of present records, each counted once at most. -/
theorem State.tally_le_present {s : State} (hs : Tab.wf Hel.empty s.hels = true) {f : Hel → Nat}
    (hf : ∀ i, f (s.hel i) ≤ one ((s.hel i).state != .absent)) : s.tally f ≤ s.present.length := by
  have hlisted : ∀ e ∈ s.hels, f e.2 ≤ one (e.2.state != .absent) := fun e he => by
    rw [← Tab.get_of_mem hs he]
    exact hf e.1
  rw [State.tally, State.present, List.length_map]
  clear hf hs
  generalize s.hels = t at hlisted
  induction t with
  | nil => exact Nat.zero_le _
  | cons e t ih =>
    have hhead := hlisted e (by simp)
    have htail := ih fun x hx => hlisted x (by simp [hx])
    rw [List.map_cons, List.sum_cons, List.filter_cons]
    split
    next he => simp only [he, one, if_true, List.length_cons] at hhead ⊢; omega
    next he => simp only [he, one, Bool.false_eq_true, if_false] at hhead ⊢; omega

/-- No more heliostats depart than are present. -/
theorem Books.departingCount_le {b : Bool} {s : State} (h : Books b s) : s.departingCount ≤ 2000 := by
  have hzones : s.departingCount = ((List.range 12).map fun z => s.tally fun g => one (g.departureZone == some z)).sum := by
    unfold State.departingCount
    congr 1
    exact List.map_congr_left fun z _ => (h.zone z).pending
  have hsum := sum_map_tally_le (s := s) (fun z g => one (g.departureZone == some z)) (fun g => one g.departureZone.isSome)
    (List.range 12) fun g => sum_one_departureZone_le g.departureZone 12
  have hrecords : s.tally (fun g => one g.departureZone.isSome) ≤ s.present.length := by
    refine State.tally_le_present h.hels fun i => ?_
    have hr := h.record i
    rw [← hr.departing]
    cases hi : (s.hel i).state with
    | absent => rw [(hr.absent hi).2.1]; exact Nat.le_refl _
    | _ =>
      cases (s.hel i).departing <;> decide
  exact hzones.le.trans (hsum.trans (hrecords.trans h.length_present_le))

/-! ### Stow -/

theorem HState.stowedBy_stowedBy (x : HState) : x.stowedBy.stowedBy = x.stowedBy := by cases x <;> rfl

/-- The state a stow engagement's move leaves (R159). -/
theorem State.state_stowOne (s : State) (i j : Nat) : ((s.stowOne i).hel j).state =
    if j = i then (s.hel i).state.stowedBy else (s.hel j).state := by
  unfold State.stowOne
  split
  next hi => rw [State.hel_depart, hi]; split <;> rfl
  next hi => rw [State.hel_dequeue, hi]; split <;> rfl
  next hi => rw [State.hel_modHel, hi]; split <;> rfl
  all_goals
    next hi => split
               next hj => rw [hj, hi]; rfl
               next => rfl

theorem State.state_foldl_stowOne (s : State) (l : List Nat) (j : Nat) : ((l.foldl State.stowOne s).hel j).state =
    if j ∈ l then (s.hel j).state.stowedBy else (s.hel j).state := by
  induction l generalizing s with
  | nil => rfl
  | cons a l ih =>
    rw [List.foldl_cons, ih, State.state_stowOne]
    by_cases ha : j = a
    · subst ha
      simp [HState.stowedBy_stowedBy]
    · simp [ha]

/-- Every record's state once the present ones are moved (R159). -/
theorem State.state_stowed (s : State) (j : Nat) : ((s.present.foldl State.stowOne s).hel j).state =
    (s.hel j).state.stowedBy := by
  rw [State.state_foldl_stowOne]
  split
  · rfl
  next hj =>
    have habsent : (s.hel j).state = .absent := by
      by_contra h
      exact hj (State.mem_present_of_ne h)
    rw [habsent]
    rfl

namespace Kept
variable {q : Prop} {b x : Bool} {s t : State}

theorem stowOne (h : Kept q b x s) (i : Nat) : Kept q b x (s.stowOne i) := by
  unfold State.stowOne
  split
  next hi => exact h.depart hi (by decide) (by decide) (by decide) fun _ => by decide
  next hi => exact h.dequeue hi (by decide) (by decide) (by decide) fun _ => by decide
  next hi =>
    refine h.setState (by rw [hi]; decide) (by rw [hi]; decide) (by rw [hi]; decide) (by decide) (by decide) (by decide)
      (fun _ => by decide) fun hs => ?_
    rw [h.stranded_eq_none (by rw [hi]; decide) (by rw [hi]; decide)] at hs
    cases hs
  all_goals exact h

/-- Books of either reading, where no heliostat is ON_TARGET, QUEUED or STANDBY. -/
theorem stowed (h : Kept q b x s) (hall : ∀ i, (s.hel i).state ≠ .onTarget ∧ (s.hel i).state ≠ .queued
    ∧ (s.hel i).state ≠ .standby) : Kept q true x s :=
  { h with books := { h.books with record := fun i => { h.books.record i with stow := fun _ => hall i } } }

/-- Books right under stow are right without it. -/
theorem unstowed (h : Kept q b x s) : Kept q false x s :=
  { h with books := { h.books with record := fun i => { h.books.record i with stow := fun hb => by cases hb } } }

/-- Protective state written, stow with it. -/
theorem setPau (h : Kept q b x s) (p : Pau) (hl : p.lateCount ≤ 2000) :
    Kept q b (p.asserted || p.stowCommand) { s with pau := p } where
  books := h.books.of_tables h.books.tables rfl (fun _ => rfl) (fun _ => rfl) hl
  stow := rfl
  safe := h.safe
  segments := h.segments

/-- Stow engages (R159). -/
theorem engageStow (h : Kept q b x s) : Kept q true x s.engageStow := by
  have hmoved : Kept q b x (s.present.foldl State.stowOne s) := foldl (fun _ i hu => hu.stowOne i) _ h
  have hall : Kept q true x (s.present.foldl State.stowOne s) := hmoved.stowed fun i => by
    rw [State.state_stowed]
    cases (s.hel i).state <;> exact ⟨by decide, by decide, by decide⟩
  unfold State.engageStow
  generalize s.present.foldl State.stowOne s = u at hall
  have howed := hall.after (.modSegs .refl Seg.owe (fun g hg => by unfold Seg.owe; split <;> exact hg)
    fun g hg => by unfold Seg.owe; split <;> exact hg)
  exact (howed.raiseBoth _ _).refreshClear

theorem unstowOne (h : Kept q false x s) (i : Nat) : Kept q false x (s.unstowOne i) := by
  unfold State.unstowOne
  dsimp only
  split
  next hi =>
    obtain ⟨hstate, hassigned, -⟩ := hi
    exact h.enqueue rfl (by rw [hstate]; decide) (by rw [hstate]; decide) (by rw [hstate]; decide) hassigned
      (h.stranded_eq_none (by rw [hstate]; decide) (by rw [hstate]; decide))
  next => exact h

/-- Stow is released (R160). -/
theorem releaseStow (h : Kept q b x s) : Kept q false x s.releaseStow := by
  have hqueued : Kept q false x (s.present.foldl State.unstowOne s) := foldl (fun _ i hu => hu.unstowOne i) _ h.unstowed
  unfold State.releaseStow
  dsimp only
  generalize s.present.foldl State.unstowOne s = u at hqueued
  have howed := hqueued.after (.modSegs .refl (fun g => { g with owed := false }) (fun _ => id) fun _ => id)
  exact ((howed.raiseBoth _ _).settleAll).refreshClear

/-- A source of stow has changed (R158). -/
theorem rederiveStow (h : Kept q b x s) : Sound q (s.rederiveStow b) := by
  have hstow := h.stow
  unfold State.rederiveStow
  split
  next hb => exact (hb.trans hstow ▸ h : Kept q x x s).sound
  next hb =>
    have hbx : b ≠ x := fun hbx => hb (hbx.trans hstow.symm)
    split
    next hbt =>
      have hx : x = false := by
        cases x with
        | false => rfl
        | true => exact absurd hbt hbx
      subst hx
      exact h.releaseStow.sound
    next hbf =>
      have hx : x = true := by
        cases x with
        | true => rfl
        | false => exact absurd (Bool.eq_false_of_not_eq_true hbf) hbx
      subst hx
      exact h.engageStow.sound

/-! ### Defocus, deadline, supervision -/

theorem defocusOne (h : Kept q b x s) (i : Nat) : Kept q b x (s.defocusOne i) := by
  unfold State.defocusOne
  split
  next hi => exact h.returned hi
  next => exact h

theorem engageDefocus (h : Kept q x x s) (c : Cause) : Kept q x x (s.engageDefocus c) := by
  have hengaged : Kept q x x { s with pau := s.pau.engage c } := by
    have := h.setPau (s.pau.engage c) (Nat.zero_le _)
    exact { this with stow := h.stow }
  have hmoved := ((foldl (fun _ i hv => hv.defocusOne i) s.present hengaged).raiseD .defocusChange).refreshClear
  unfold State.engageDefocus
  exact ite (hmoved.raiseP _) hmoved

theorem releaseDefocus (h : Kept q x x s) : Kept q x x s.releaseDefocus := by
  have hreleased : Kept q x x { s with pau := { s.pau with defocus := false, cause := .none, deadlineLeft := none } } := by
    have := h.setPau { s.pau with defocus := false, cause := .none, deadlineLeft := none } h.books.late
    exact { this with stow := h.stow }
  unfold State.releaseDefocus
  exact ((hreleased.raiseD .defocusChange).settleAll).refreshClear

theorem deadlineEnd (h : Kept q x x s) : Kept q x x s.deadlineEnd := by
  have hstopped : Kept q x x { s with pau := { s.pau with deadlineLeft := none } } :=
    { h.setPau { s.pau with deadlineLeft := none } h.books.late with stow := h.stow }
  have hlate : Kept q x x { s with pau := { s.pau with deadlineLeft := none, lateCount := s.departingCount } } :=
    { h.setPau { s.pau with deadlineLeft := none, lateCount := s.departingCount } h.books.departingCount_le with stow := h.stow }
  exact ite (hlate.raiseP _) hstopped

theorem supervisionEnd (h : Kept q x x s) : Kept q x x s.supervisionEnd := by
  have hstopped : Kept q x x { s with pau := { s.pau with supLeft := none } } :=
    { h.setPau { s.pau with supLeft := none } h.books.late with stow := h.stow }
  unfold State.supervisionEnd
  exact ite (hstopped.raiseBoth _ _) ((hstopped.raiseBoth _ _).engageDefocus _)

/-! ### SET_SHADE -/

theorem setShade (h : Kept q b x s) (maps : BitVec 64) (shf : Nat) {qual shadeMax : Nat} (hqual : qual ≤ 255)
    (hmax : shadeMax ≤ 255) (depths : BitVec 64) : Kept q b x (s.setShade maps shf qual shadeMax depths) := by
  have hq {v : State} (hv : Kept q b x v) : Kept q b x { v with scu := { v.scu with qual := qual } } :=
    hv.after (.units .refl { units := State.unitsOk_of fun r => { r with scu := ⟨r.scu.1, hqual, r.scu.2.2⟩ } })
  have hm {v : State} (hv : Kept q b x v) : Kept q b x { v with scu := { v.scu with shadeMax := shadeMax } } :=
    hv.after (.units .refl { units := State.unitsOk_of fun r => { r with scu := ⟨r.scu.1, r.scu.2.1, hmax⟩ } })
  have hrest {v : State} (hv : Kept q b x v) (ks ks' : List Nat) :
      Kept q b x (((ks.foldl State.stuckCheck v).setMaps maps).rederiveList ks').refreshClear :=
    (((foldl (fun _ k hw => hw.after (.stuckCheck .refl k)) ks hv).after (.setMaps .refl maps)).rederiveList ks').refreshClear
  have hdepths := hq (h.after (.setDepths .refl depths))
  unfold State.setShade
  dsimp only
  exact hrest (hm (hdepths.setShf shf)) _ _

end Kept

end Sys2Proof.Machine
end

section
/-! PROOFS. Every command keeps the books of the field and the safety of the zones; reset meets every invariant. -/

-- One proof after another: begun all at once, the proofs of the whole text outgrow the check's memory.
set_option Elab.async false

namespace Sys2Proof.Machine

namespace Sound
variable {q : Prop} {s t : State}

theorem after (h : Sound q s) (w : Writes true true true s t) : Sound q t := (Kept.after h w).sound

/-- A delivery keeps what its action keeps. -/
theorem deliverWith (h : Sound q s) {c : Instr} {act : State → State × Code}
    {first : State → Option (List Byte × Option Cursor)} (hact : ∀ u, Sound q u → Sound q (act u).1) :
    Sound q (Machine.deliverWith c act first s) := by
  unfold Machine.deliverWith
  split
  · exact h
  · split
    · exact (hact _ (h.after (.setTxn .refl _ _))).after (.setTxn (.superviseDelivery .refl _) _ _)
    · exact h

theorem withRecord (h : Sound q s) {index : BitVec 16} {act : Nat → Hel → State → State × Code}
    (hact : ∀ i, i ≤ 1999 → (s.hel i).state ≠ .absent → Sound q (act i (s.hel i) s).1) :
    Sound q (Machine.withRecord index act s).1 := by
  unfold Machine.withRecord
  split
  · exact h
  next hi =>
    split
    · exact h
    next ha => exact hact _ (Nat.not_lt.1 hi) ha

theorem withZone (h : Sound q s) {zone : Byte} {act : Nat → State → State × Code} (hact : ∀ z, Sound q (act z s).1) :
    Sound q (Machine.withZone zone act s).1 := by
  unfold Machine.withZone
  split
  · exact h
  · exact hact _

/-- An action of one of two branches. -/
theorem ite {c : Prop} [Decidable c] {a b : State × Code} (ha : c → Sound q a.1) (hb : ¬ c → Sound q b.1) :
    Sound q (if c then a else b).1 := by
  split
  · exact ha ‹_›
  · exact hb ‹_›

/-- An action with its code. -/
theorem taken {c : Code} (h : Sound q t) : Sound q (t, c).1 := h

end Sound

/-- Command `c` acts on `s` and keeps the books and the safety of the zones. -/
def KeptBy (q : Prop) (s : State) (c : Instr) : Prop := ∃ t, exec c s = .next t ∧ Sound q t

namespace KeptBy
variable {q : Prop} {s : State} (h : Sound q s)
include h

/-! ### The heliostat table -/

theorem writeHeliostat (index : BitVec 16) (segment drop : Byte) (x y z : BitVec 32) (area refl : BitVec 16) :
    KeptBy q s (.writeHeliostat index segment drop x y z area refl) := by
  refine ⟨_, rfl, h.deliverWith fun u hu => .ite (fun _ => hu) fun hi => ?_⟩
  cases hcheck : u.writeRefusal index.toNat
      ⟨segment.toNat, drop.toNat, ⟨x.toInt, y.toInt, z.toInt⟩, area.toNat, refl.toNat⟩ with
  | some c => exact hu
  | none =>
    unfold State.writeRefusal at hcheck
    simp only [ite_some_eq_none_iff, Bool.not_eq_true', Bool.not_eq_false] at hcheck
    obtain ⟨hw, hd, -⟩ := hcheck
    exact .taken (Kept.writeRecord hu (Nat.not_lt.1 hi) hw hd).sound

theorem assign (index : BitVec 16) (point : Byte) : KeptBy q s (.assign index point) := by
  refine ⟨_, rfl, h.deliverWith fun u hu => hu.withRecord fun i _ ha => .ite (fun _ => hu) fun _ => ?_⟩
  split
  next p _ =>
    exact .ite (fun hp => .taken (Kept.assignTo hu ha fun a hpa => by cases hpa; exact hp).refreshClear.sound) fun _ => hu
  next => exact .taken (Kept.assignTo hu ha fun a hpa => by cases hpa).refreshClear.sound

theorem park (index : BitVec 16) : KeptBy q s (.park index) := by
  refine ⟨_, rfl, h.deliverWith fun u hu => hu.withRecord fun i _ _ => ?_⟩
  have hr := hu.books.record i
  split
  next hi =>
    exact .taken (Kept.dequeue hu hi (by decide) (by decide) (by decide) fun hb => absurd hi (hr.stow hb).2.1).sound
  next hi =>
    exact .taken (Kept.depart hu hi (by decide) (by decide) (by decide) fun hb => absurd hi (hr.stow hb).1).refreshClear.sound
  all_goals exact hu

theorem exclude (index : BitVec 16) : KeptBy q s (.exclude index) := by
  refine ⟨_, rfl, h.deliverWith fun u hu => hu.withRecord fun i _ ha =>
    .ite (fun _ => hu) fun hstate => .ite (fun _ => hu) fun hfree => .taken ?_⟩
  have hidle : (u.hel i).state ≠ .onTarget ∧ (u.hel i).state ≠ .queued := by
    constructor <;> intro hi <;> exact hstate (by rw [hi]; decide)
  have hnone : ¬ (u.hel i).stranded.isSome = true := fun hs => hfree (by rw [hs]; rfl)
  exact ((Kept.after hu (.urgentRemove .refl _ i)).setState ha hidle.1 hidle.2 (by decide) (by decide) (by decide)
    (fun _ => by decide) fun hs => absurd hs hnone).sound

theorem includeHel (index : BitVec 16) : KeptBy q s (.includeHel index) := by
  refine ⟨_, rfl, h.deliverWith fun u hu => hu.withRecord fun i _ ha => .ite (fun hi => .taken ?_) fun _ => hu⟩
  exact (Kept.queueOrStow hu ha (by rw [hi]; decide) (by rw [hi]; decide)
    (Kept.stranded_eq_none hu (by rw [hi]; decide) (by rw [hi]; decide))).sound

theorem clearFault (index : BitVec 16) : KeptBy q s (.clearFault index) := by
  refine ⟨_, rfl, h.deliverWith fun u hu => hu.withRecord fun i _ _ => .ite (fun hi => .taken ?_) fun _ => hu⟩
  have hclear := (Kept.releaseFlux hu i).clearDeparture i
  have hstate : (((u.releaseFlux i).clearDeparture i).hel i).state = .faulted := by
    rw [← hi, State.hel_clearDeparture]
    have hflux : ((u.releaseFlux i).hel i).state = (u.hel i).state := by
      unfold State.releaseFlux
      split
      · unfold State.leaveOver
        split
        · rw [State.modZone_hel, State.hel_modHel, if_pos rfl]; rfl
        · rw [State.hel_modHel, if_pos rfl]; rfl
      · rfl
    split <;> exact hflux
  have hoffline := hclear.setState (dst := .offline) (by rw [hstate]; decide) (by rw [hstate]; decide)
    (by rw [hstate]; decide) (by decide) (by decide) (by decide) (fun _ => by decide) fun _ => .inl rfl
  have hdev := hoffline.modHel_plain i (fun g => { g with dev := 0 }) rfl
  rw [State.modHel_modHel] at hdev
  exact hdev.refreshClear.sound

theorem releaseStranded (index : BitVec 16) : KeptBy q s (.releaseStranded index) :=
  ⟨_, rfl, h.deliverWith fun _ hu => hu.withRecord fun i _ _ => .ite (fun _ => hu) fun _ => .ite (fun _ => hu) fun _ =>
    .taken ((Kept.releaseFlux hu i).clearDeparture i).refreshClear.sound⟩

theorem retire (index : BitVec 16) : KeptBy q s (.retire index) := by
  refine ⟨_, rfl, h.deliverWith fun u hu => hu.withRecord fun i _ ha =>
    .ite (fun _ => hu) fun hstate => .ite (fun _ => hu) fun hnone => .taken ?_⟩
  have hidle : (u.hel i).state ≠ .onTarget ∧ (u.hel i).state ≠ .queued := by
    constructor <;> intro hi <;> exact hstate (by rw [hi]; decide)
  exact (Kept.retireRecord hu ha hidle.1 hidle.2 (by simpa using hnone)).refreshClear.sound

/-! ### Points and zones -/

theorem writeAimpoint (point valid : Byte) (x y z : BitVec 32) (zone alternate : Byte) :
    KeptBy q s (.writeAimpoint point valid x y z zone alternate) := by
  refine ⟨_, rfl, h.deliverWith fun u hu => ?_⟩
  split
  · exact hu
  next hok => exact .taken (Kept.writePoint hu hok).sound

theorem setZone (zone : Byte) (limit : BitVec 16) (standby : Byte) : KeptBy q s (.setZone zone limit standby) :=
  ⟨_, rfl, h.deliverWith fun _ hu => hu.withZone fun z => .ite (fun _ => hu) fun _ =>
    .taken (Kept.limit hu z (fun zn => { zn with dispatchLimit := limit.toNat, standby := pointOperand standby })
      fun _ => ⟨rfl, rfl, rfl, rfl⟩).refreshClear.sound⟩

theorem setProtectLimit (zone : Byte) (limit : BitVec 16) : KeptBy q s (.setProtectLimit zone limit) :=
  ⟨_, rfl, h.deliverWith fun _ hu => hu.withZone fun z =>
    .taken (Kept.limit hu z (fun zn => { zn with protectLimit := limit.toNat })
      fun _ => ⟨rfl, rfl, rfl, rfl⟩).refreshClear.sound⟩

theorem unhold (zone : Byte) : KeptBy q s (.unhold zone) :=
  ⟨_, rfl, h.deliverWith fun _ hu => hu.withZone fun z => .ite
    (fun _ => .taken (Kept.after hu (FollowedBy.zoneSettings z _ id rfl (.inr rfl))).settleAll.refreshClear.sound) fun _ => hu⟩

/-! ### Sweeps -/

theorem epochNow : KeptBy q s .epochNow :=
  ⟨_, rfl, h.deliverWith fun _ hu => .ite (fun _ => hu) fun _ => .taken (Kept.startSweep hu).sound⟩

theorem epochExpiry : KeptBy q s .epochExpiry := by
  refine ⟨_, rfl, ?_⟩
  split
  · have hreload : Sound q { s.elapse s.epoch.countdown with epoch := (s.elapse s.epoch.countdown).epoch.reload } :=
      h.after (.reload (.elapse .refl _))
    dsimp only
    split
    · exact (Kept.raiseD hreload _).sound
    · exact (Kept.startSweep hreload).sound
  · exact h

theorem sweepComplete (first : Byte) : KeptBy q s (.sweepComplete first) := by
  refine ⟨_, rfl, ?_⟩
  split
  · exact (Kept.completeSweep h _).sound
  · exact h

/-! ### Receptions -/

theorem receptionComplete (segment : Fin 8) (bytes : List Byte) : KeptBy q s (.receptionComplete segment bytes) := by
  refine ⟨_, rfl, ?_⟩
  split
  · exact (Kept.ite (Kept.classify h _ _ _) h).sound
  · exact h

theorem receptionBroken (segment : Fin 8) : KeptBy q s (.receptionBroken segment) := by
  refine ⟨_, rfl, ?_⟩
  split
  · exact (Kept.ite (Kept.corruptReception h _ _) h).sound
  · exact h

theorem replyTimeout (segment : Fin 8) : KeptBy q s (.replyTimeout segment) := by
  refine ⟨_, rfl, ?_⟩
  split
  · exact (Kept.ite ((Kept.after h (.elapse .refl _)).missOutcome _ _) h).sound
  · exact h

/-! ### Sensors -/

theorem setShade (maps : BitVec 64) (shf : BitVec 16) (qual shadeMax : Byte) (depths : BitVec 64) :
    KeptBy q s (.setShade maps shf qual shadeMax depths) :=
  ⟨_, rfl, h.deliverWith fun _ hu => .taken (Kept.setShade hu maps _ (Nat.le_of_lt_succ qual.isLt)
    (Nat.le_of_lt_succ shadeMax.isLt) depths).sound⟩

theorem shadowSensorChange (sensor : Fin 8) (level : Bool) : KeptBy q s (.shadowSensorChange sensor level) :=
  ⟨_, rfl, ((Kept.after h (.setShd .refl _ _)).sampleSensor _ _).sound⟩

theorem shadowOnset (sensor : Fin 8) : KeptBy q s (.shadowOnset sensor) :=
  ⟨_, rfl, (Kept.ite ((Kept.after h (.setShd (.elapseTo .refl _) _ _)).sampleSensor _ _) h).sound⟩

theorem shadowEnd (sensor : Fin 8) : KeptBy q s (.shadowEnd sensor) :=
  ⟨_, rfl, (Kept.ite h ((Kept.after h (.setShd (.elapseTo .refl _) _ _)).sampleSensor _ _)).sound⟩

theorem sensorStuck (sensor : Fin 8) : KeptBy q s (.sensorStuck sensor) :=
  ⟨_, rfl, (Kept.ite ((Kept.after h (.markStuck (.elapse .refl _) _)).reshade _) h).sound⟩

/-! ### Protective actions -/

omit h in
theorem setStowCommand (h : Sound q s) (b : Bool) : Sound q (s.setStowCommand b) :=
  Kept.rederiveStow (Kept.setPau h { s.pau with stowCommand := b } h.books.late)

omit h in
theorem sampleLine (h : Sound q s) (level : Bool) : Sound q (s.sampleLine level) := by
  have hsampled : Sound q { s with pins := { s.pins with stowreqN := level }, pau := { s.pau with stowSampled := level } } :=
    h.after (.units .refl {})
  have hcand (u : State) (hu : Sound q u) (c : Option Cand) : Sound q (u.setLineCand c) := hu.after (.units .refl {})
  unfold State.sampleLine
  dsimp only
  generalize ({ s with pins := { s.pins with stowreqN := level }, pau := { s.pau with stowSampled := level } } : State) = u
    at hsampled
  split
  · exact hcand u hsampled _
  · split
    · exact hcand u hsampled _
    · split
      · exact Kept.rederiveStow (Kept.setPau hsampled { u.pau with asserted := !u.pau.asserted, lineCand := none } hsampled.books.late)
      · exact hsampled

theorem deadlineExpiry : KeptBy q s .deadlineExpiry := by
  refine ⟨_, rfl, ?_⟩
  split
  · exact (Kept.deadlineEnd (h.after (.elapse .refl _))).sound
  · exact h

theorem supervisionExpired : KeptBy q s .supervisionExpired := by
  refine ⟨_, rfl, ?_⟩
  split
  · exact (Kept.supervisionEnd (h.after (.elapse .refl _))).sound
  · exact h

theorem fieldDefocus : KeptBy q s .fieldDefocus := by
  refine ⟨_, rfl, h.deliverWith fun u hu => ?_⟩
  exact .taken (Kept.ite hu (Kept.engageDefocus hu _)).sound

theorem fieldRelease : KeptBy q s .fieldRelease := by
  refine ⟨_, rfl, h.deliverWith fun u hu => ?_⟩
  exact .taken (Kept.ite (Kept.releaseDefocus hu) hu).sound

/-- A command that leaves what books and budget read. -/
theorem of_leavesBooks {c : Instr} (hc : c ≠ .pinReset) (hplain : leavesBooks c = true) : KeptBy q s c := by
  obtain ⟨t, ht, hf⟩ := exec_followedBy s c hc
  refine ⟨t, ht, ?_⟩
  cases hf with
  | quiet hw => rw [hplain] at hw; exact (hw.kept h).sound
  | refreshed plain => rw [hplain] at plain; cases plain

end KeptBy

/-- Every command but pin reset keeps the books and the safety of the zones. -/
theorem exec_keptBy {q : Prop} {s : State} (h : Sound q s) (c : Instr) (hc : c ≠ .pinReset) : KeptBy q s c := by
  cases c with
  | writeHeliostat index segment drop x y z area refl => exact .writeHeliostat h index segment drop x y z area refl
  | assign index point => exact .assign h index point
  | park index => exact .park h index
  | exclude index => exact .exclude h index
  | includeHel index => exact .includeHel h index
  | clearFault index => exact .clearFault h index
  | releaseStranded index => exact .releaseStranded h index
  | retire index => exact .retire h index
  | writeAimpoint point valid x y z zone alternate => exact .writeAimpoint h point valid x y z zone alternate
  | setZone zone limit standby => exact .setZone h zone limit standby
  | epochNow => exact .epochNow h
  | setShade maps shf qual shadeMax depths => exact .setShade h maps shf qual shadeMax depths
  | stow => exact ⟨_, rfl, h.deliverWith fun _ hu => .taken (KeptBy.setStowCommand hu true)⟩
  | unstow => exact ⟨_, rfl, h.deliverWith fun _ hu => .taken (KeptBy.setStowCommand hu false)⟩
  | setProtectLimit zone limit => exact .setProtectLimit h zone limit
  | unhold zone => exact .unhold h zone
  | fieldDefocus => exact .fieldDefocus h
  | fieldRelease => exact .fieldRelease h
  | epochExpiry => exact .epochExpiry h
  | sweepComplete first => exact .sweepComplete h first
  | receptionComplete segment bytes => exact .receptionComplete h segment bytes
  | receptionBroken segment => exact .receptionBroken h segment
  | replyTimeout segment => exact .replyTimeout h segment
  | shadowSensorChange sensor level => exact .shadowSensorChange h sensor level
  | shadowOnset sensor => exact .shadowOnset h sensor
  | shadowEnd sensor => exact .shadowEnd h sensor
  | sensorStuck sensor => exact .sensorStuck h sensor
  | stowLineChange level => exact ⟨_, rfl, KeptBy.sampleLine h level⟩
  | stowLineQualified => exact ⟨_, rfl, KeptBy.sampleLine (h.after (.elapseTo .refl _)) _⟩
  | deadlineExpiry => exact .deadlineExpiry h
  | supervisionExpired => exact .supervisionExpired h
  | pinReset => exact absurd rfl hc
  | _ => exact .of_leavesBooks h hc rfl

/-! ### Reset -/

/-- Without records, points and zones the books are right. -/
theorem Books.of_empty {b : Bool} {s : State} (tables : s.tablesOk = true) (hels : s.hels = []) (points : s.points = [])
    (zones : s.zones = []) (late : s.pau.lateCount ≤ 2000) : Books b s := by
  have hhel i : s.hel i = Hel.empty := by rw [State.hel, hels]; rfl
  have hpoint p : s.point p = Point.reset := by rw [State.point, points]; rfl
  have hzone z : s.zone z = Zone.reset := by rw [State.zone, zones]; rfl
  have htally f : s.tally f = 0 := by rw [State.tally, hels]; rfl
  refine ⟨tables, fun i => ?_, fun p => ?_, fun z => ?_, fun i hi => ?_, late⟩
  · rw [hhel]
    exact { absent := fun _ => ⟨rfl, rfl, rfl⟩, assigned := fun hs => (by rcases hs with hs | hs <;> cases hs)
            aimed := fun hs => (by cases hs), alternate := fun hs => (by cases hs), stranded := fun hs => (by cases hs)
            departing := rfl, point := fun _ hs => (by cases hs), departureZone := fun _ hs => (by cases hs)
            strandedZone := fun _ hs => (by cases hs), stow := fun _ => ⟨by decide, by decide, by decide⟩ }
  · constructor <;> rw [hpoint]
    · decide
    · exact fun _ hq => by cases hq
    · exact fun _ => ⟨rfl, rfl⟩
    all_goals rw [htally]; rfl
  · constructor <;> rw [hzone]
    · exact List.nodup_nil
    · exact List.nodup_nil
    · intro i
      rw [hhel]
      exact ⟨fun hi => (by cases hi), fun hi => by cases hi.1⟩
    · intro i
      rw [hhel]
      exact ⟨fun hi => (by cases hi), fun hi => by cases hi.1⟩
    all_goals rw [htally]; rfl
  · rw [hhel] at hi
    exact absurd rfl hi

theorem sound_pinReset {q : Prop} {s t : State} (h : execPinReset s = .next t) : Sound q t := by
  have htables := tablesOk_pinReset h
  obtain ⟨segs, rfl, -⟩ := eq_of_pinReset h
  exact { books := Books.of_empty htables rfl rfl rfl (Nat.zero_le _), stow := rfl, safe := fun _ _ _ => .inr rfl
          segments := fun _ _ => Nat.zero_le _ }

/-! ### Every step -/

theorem step_sound {q : Prop} {s t : State} (hs : Sound q s) (h : step s = .next t) : Sound q t := by
  cases hp : s.pending with
  | nil =>
    rw [step_of_pending_nil hp] at h
    exact Host.Outcome.next.inj h ▸ hs.after (.tick .refl)
  | cons c rest =>
    rw [step_of_pending_cons hp] at h
    have hrest : Sound q { s with pending := rest } := hs.after (.units .refl {})
    by_cases hc : c = .pinReset
    · subst hc
      exact sound_pinReset h
    · obtain ⟨u, hu, hsound⟩ := exec_keptBy hrest c hc
      rw [hu] at h
      exact Host.Outcome.next.inj h ▸ hsound

/-- Right books, without regard to the zones' safety. -/
theorem Sound.of_books {s : State} (h : s.booksOk) : Sound False s :=
  ⟨(State.booksOk_iff s).1 h, rfl, fun hf => hf.elim, fun hf => hf.elim⟩

/-- Settles O1. -/
theorem stepRunsFront : Obligations.StepRunsFront := by
  unfold Obligations.StepRunsFront
  exact fun s c rest h => step_of_pending_cons h

theorem State.reset_books {b : Bool} : Books b State.reset := .of_empty rfl rfl rfl rfl (Nat.zero_le _)

/-- Settles O54: after reset there is no record, and every unit stands at its reset value. -/
theorem resetMeetsInvariants : Obligations.ResetMeetsInvariants := by
  unfold Obligations.ResetMeetsInvariants
  refine ⟨rfl, State.reset_clearOk, State.reset_unitsOk, ?_, State.reset_recordsOk,
    (State.booksOk_iff _).2 State.reset_books, fun _ _ => .inr rfl, fun i j hi => absurd rfl hi⟩
  exact (State.blocksOk_iff _).2 ⟨fun _ => Zone.reset_inRange, fun _ => Seg.reset_inRange, fun _ => Channel.reset_inRange⟩

/-- Settles O26: a settlement of all zones makes every zone safe; every step is a tick, a pin reset or a command that
keeps the books, and with them the safety of the zones. -/
theorem settleAllHoldsLimits : Obligations.SettleAllHoldsLimits := by
  unfold Obligations.SettleAllHoldsLimits
  refine ⟨State.zonesSafe_settleAll, fun s t hbooks h => ?_, fun s t hbooks hrecords hsafe h => ?_⟩
  · exact (State.booksOk_iff t).2 (step_sound (.of_books hbooks) h).books
  · have hs : Sound True s :=
      ⟨(State.booksOk_iff s).1 hbooks, rfl, fun _ => hsafe, fun _ i => (hrecords.1 i).1⟩
    exact (step_sound hs h).safe trivial

end Sys2Proof.Machine
end

section
/-! PROOFS. What a delivered command leaves, read through what the delivery itself writes; and the refusals, which change
nothing (R31, R32, R35, R41, R42, R53, R118). -/

-- One proof after another: begun all at once, the proofs of the whole text outgrow the check's memory.
set_option Elab.async false

namespace Sys2Proof.Machine

/-! ### Deliveries -/

/-- A command is delivered with its code and changes nothing else. -/
def RefusedWith (s : State) (c : Instr) (p : Port) (code : Code) : Prop :=
  ∃ t, exec c s = .next t ∧ Delivered s t p code ∧ t.bare = s.bare

section
variable {c : Instr} {w : WireCmd} (hw : wire c = some w) {act : State → State × Code}
  {first : State → Option (List Byte × Option Cursor)} {s : State} {code : Code} (hr : s.accepts c = true)
  (hc : exec c s = .next (deliverWith c act first s))
include hw hr hc

/-- A delivery whose action leaves the state and refuses. -/
theorem refusedWith (ha : ∀ u : State, u.bare = s.bare → act u = (u, code)) : RefusedWith s c w.port code := by
  have hact := ha (s.setTxn w.port (Txn.received w)) (State.setTxn_bare _ _ _)
  refine ⟨_, hc.trans (by rw [deliverWith_ready hw _ _ hr]), ?_, ?_⟩
  · rw [hact]
    exact delivered_afterDelivery _ _ _ _ rfl (State.txn_setTxn_ne _ (otherPort_ne _) _) (by rw [State.setTxn_pau])
  · rw [hact, State.afterDelivery_bare, State.setTxn_bare]

/-- A delivered action `f`: what holds of its outcome on `s` with whatever the port has received, and is not about the
ports, holds of what the delivery leaves. -/
theorem exec_acted {f : State → State} {P : State → Prop}
    (ha : ∀ x, act (s.setTxn w.port x) = (f (s.setTxn w.port x), code))
    (hf : ∀ u : State, (f u).txn (otherPort w.port) = u.txn (otherPort w.port) ∧ (f u).pau.supLeft = u.pau.supLeft)
    (h : ∀ x, P (f (s.setTxn w.port x))) (hP : ∀ v : State, P v.bare ↔ P v := by exact fun _ => Iff.rfl) :
    ∃ t, exec c s = .next t ∧ Delivered s t w.port code ∧ P t := by
  have hact := ha (Txn.received w)
  obtain ⟨hport, hsup⟩ := hf (s.setTxn w.port (Txn.received w))
  have hmade := (hP _).2 (h (Txn.received w))
  refine ⟨_, hc.trans (by rw [deliverWith_ready hw _ _ hr]), ?_, (hP _).1 ?_⟩
  · rw [hact]
    exact delivered_afterDelivery _ _ _ _ rfl (hport.trans (State.txn_setTxn_ne _ (otherPort_ne _) _))
      (hsup.trans (by rw [State.setTxn_pau]))
  · rwa [hact, State.afterDelivery_bare]

end

/-! ### Commands of the heliostat table that name nothing -/

theorem withRecord_of_gt {index : BitVec 16} (act : Nat → Hel → State → State × Code) (u : State)
    (hi : 1999 < index.toNat) : withRecord index act u = (u, .range) := by
  rw [withRecord, if_pos hi]

theorem withRecord_of_absent {index : BitVec 16} (act : Nat → Hel → State → State × Code) {u : State}
    (hi : index.toNat ≤ 1999) (ha : (u.hel index.toNat).state = .absent) : withRecord index act u = (u, .state) := by
  rw [withRecord, if_neg hi.not_gt, if_pos ha]

/-- The commands that begin with the checks of R31. -/
theorem exec_withRecord {c : Instr} {i : BitVec 16} (hc : (∃ q, c = .assign i q) ∨ c = .park i ∨ c = .exclude i
      ∨ c = .includeHel i ∨ c = .clearFault i ∨ c = .releaseStranded i ∨ c = .retire i) (s : State) :
    ∃ w act, wire c = some w ∧ w.port = .dispatch
      ∧ exec c s = .next (deliverWith c (withRecord i act) (fun _ => none) s) := by
  rcases hc with ⟨q, rfl⟩ | rfl | rfl | rfl | rfl | rfl | rfl <;> exact ⟨_, _, rfl, rfl, rfl⟩

/-- The commands that begin with the check of a zone number. -/
theorem exec_withZone {c : Instr} {b : Byte} {p : Port} (hc : (p = .dispatch ∧ ∃ l q, c = .setZone b l q)
      ∨ (p = .protection ∧ ((∃ l, c = .setProtectLimit b l) ∨ c = .hold b ∨ c = .unhold b ∨ ∃ v, c = .setRamp b v)))
    (s : State) : ∃ w act, wire c = some w ∧ w.port = p
      ∧ exec c s = .next (deliverWith c (withZone b act) (fun _ => none) s) := by
  rcases hc with ⟨rfl, l, q, rfl⟩ | ⟨rfl, ⟨l, rfl⟩ | rfl | rfl | ⟨v, rfl⟩⟩ <;> exact ⟨_, _, rfl, rfl, rfl⟩

section
variable {s : State} {c : Instr} (hr : s.accepts c = true)
include hr

theorem withRecord_refused_of_gt {i : BitVec 16} (hi : 1999 < i.toNat) (hc : (∃ q, c = .assign i q) ∨ c = .park i
      ∨ c = .exclude i ∨ c = .includeHel i ∨ c = .clearFault i ∨ c = .releaseStranded i ∨ c = .retire i) :
    RefusedWith s c .dispatch .range := by
  obtain ⟨w, act, hw, hport, hexec⟩ := exec_withRecord hc s
  exact hport ▸ refusedWith hw hr hexec fun u _ => withRecord_of_gt act u hi

theorem withRecord_refused_of_absent {i : BitVec 16} (hi : i.toNat ≤ 1999) (ha : (s.hel i.toNat).state = .absent)
    (hc : (∃ q, c = .assign i q) ∨ c = .park i ∨ c = .exclude i ∨ c = .includeHel i ∨ c = .clearFault i
      ∨ c = .releaseStranded i ∨ c = .retire i) : RefusedWith s c .dispatch .state := by
  obtain ⟨w, act, hw, hport, hexec⟩ := exec_withRecord hc s
  refine hport ▸ refusedWith hw hr hexec fun u hu => withRecord_of_absent act hi ?_
  rw [State.hel_of_bare_eq hu, ha]

theorem withZone_refused_of_gt {b : Byte} (hb : 11 < b.toNat) {p : Port}
    (hc : (p = .dispatch ∧ ∃ l q, c = .setZone b l q)
      ∨ (p = .protection ∧ ((∃ l, c = .setProtectLimit b l) ∨ c = .hold b ∨ c = .unhold b ∨ ∃ v, c = .setRamp b v))) :
    RefusedWith s c p .range := by
  obtain ⟨w, act, hw, hport, hexec⟩ := exec_withZone hc s
  exact hport ▸ refusedWith hw hr hexec fun u _ => withZone_of_gt act u hb

end

/-! ### The checks of WRITE_HELIOSTAT -/

theorem Hel.writable_iff (h : Hel) : h.writable = true ↔
    (h.state = .absent ∨ h.state = .excluded ∨ (h.state = .stowed ∧ h.assignment = none)) ∧ h.departing = false := by
  simp [Hel.writable, or_assoc]

/-- The operands of WRITE_HELIOSTAT as an identity. -/
def identityOf (k d : Byte) (x y z : BitVec 32) (a r : BitVec 16) : Identity :=
  ⟨k.toNat, d.toNat, ⟨x.toInt, y.toInt, z.toInt⟩, a.toNat, r.toNat⟩

theorem Identity.inRange_iff (d : Identity) : d.inRange = true ↔ d.segment ≤ 7 ∧ 1 ≤ d.drop ∧ d.drop ≤ 250
    ∧ 1 ≤ d.area ∧ d.refl ≤ 1024 ∧ ∀ c ∈ [d.pos.x, d.pos.y, d.pos.z], -1000000 ≤ c ∧ c ≤ 1000000 := by
  simp only [Identity.inRange, positionOk, inPlant, Bool.and_eq_true, decide_eq_true_eq, List.mem_cons,
    List.not_mem_nil, or_false, forall_eq_or_imp, forall_eq]
  tauto

theorem identityOf_inRange_iff (k d : Byte) (x y z : BitVec 32) (a r : BitVec 16) :
    (identityOf k d x y z a r).inRange = true ↔ k.toNat ≤ 7 ∧ 1 ≤ d.toNat ∧ d.toNat ≤ 250 ∧ 1 ≤ a.toNat ∧ r.toNat ≤ 1024
      ∧ ∀ c ∈ [x.toInt, y.toInt, z.toInt], -1000000 ≤ c ∧ c ≤ 1000000 :=
  Identity.inRange_iff _

section
variable {s : State} (i : BitVec 16) (k d : Byte) (x y z : BitVec 32) (a r : BitVec 16)

/-- WRITE_HELIOSTAT whose checks of R32 answer a code. -/
theorem writeHeliostat_refused (hr : s.accepts (.writeHeliostat i k d x y z a r) = true) (hi : i.toNat ≤ 1999)
    {code : Code} (hcheck : s.writeRefusal i.toNat (identityOf k d x y z a r) = some code) :
    RefusedWith s (.writeHeliostat i k d x y z a r) .dispatch code := by
  refine refusedWith (w := ⟨.dispatch, 0x10, _⟩) rfl hr rfl fun u hu => ?_
  have hsame : u.writeRefusal i.toNat (identityOf k d x y z a r) = some code := by
    have hbare : u.bare.writeRefusal i.toNat (identityOf k d x y z a r)
        = s.bare.writeRefusal i.toNat (identityOf k d x y z a r) := by rw [hu]
    exact hbare.trans hcheck
  rw [if_neg hi.not_gt]
  split
  next c hc => rw [Option.some.inj (hc.symm.trans hsame)]
  next hc => cases hc.symm.trans hsame

theorem writeHeliostat_refused_of_gt (hr : s.accepts (.writeHeliostat i k d x y z a r) = true) (hi : 1999 < i.toNat) :
    RefusedWith s (.writeHeliostat i k d x y z a r) .dispatch .range :=
  refusedWith (w := ⟨.dispatch, 0x10, _⟩) rfl hr rfl fun _ _ => if_pos hi

end

/-- The checks of R32 in their order. -/
theorem State.writeRefusal_eq (s : State) (i : Nat) (d : Identity) : s.writeRefusal i d =
    if (s.hel i).writable = false then some .state
    else if d.inRange = false then some .range
    else if 250 ≤ (s.othersIn d.segment i).length then some .full
    else if ∃ j ∈ s.othersIn d.segment i, (s.hel j).drop = d.drop then some .duplicate
    else none := by
  unfold State.writeRefusal
  simp only [Bool.not_eq_true', List.any_eq_true, beq_iff_eq]

/-! ### The other refusals -/

section
variable {s : State}

theorem clearFault_refused {i : BitVec 16} (hr : s.accepts (.clearFault i) = true) (hi : i.toNat ≤ 1999)
    (hp : (s.hel i.toNat).state ≠ .absent) (hf : (s.hel i.toNat).state ≠ .faulted) :
    RefusedWith s (.clearFault i) .dispatch .state := by
  refine refusedWith (w := ⟨.dispatch, _, _⟩) rfl hr rfl fun u hu => ?_
  have hhel := State.hel_of_bare_eq hu i.toNat
  rw [withRecord_of_present _ hi (hhel ▸ hp), if_neg (hhel ▸ hf)]

theorem releaseStranded_refused {i : BitVec 16} (hr : s.accepts (.releaseStranded i) = true) (hi : i.toNat ≤ 1999)
    (hp : (s.hel i.toNat).state ≠ .absent)
    (hn : ((s.hel i.toNat).state ≠ .offline ∧ (s.hel i.toNat).state ≠ .faulted) ∨ (s.hel i.toNat).stranded = none) :
    RefusedWith s (.releaseStranded i) .dispatch .state := by
  refine refusedWith (w := ⟨.dispatch, _, _⟩) rfl hr rfl fun u hu => ?_
  have hhel := State.hel_of_bare_eq hu i.toNat
  rw [withRecord_of_present _ hi (hhel ▸ hp)]
  by_cases hstate : (u.hel i.toNat).state ≠ .offline ∧ (u.hel i.toNat).state ≠ .faulted
  · rw [if_pos hstate]
  · have hnone := hn.resolve_left (hhel ▸ hstate)
    rw [if_neg hstate, if_pos (by rw [hhel, hnone]; rfl)]

theorem assign_refused_of_excluded {i : BitVec 16} {q : Byte} (hr : s.accepts (.assign i q) = true)
    (hi : i.toNat ≤ 1999) (he : (s.hel i.toNat).state = .excluded) : RefusedWith s (.assign i q) .dispatch .state := by
  refine refusedWith (w := ⟨.dispatch, _, _⟩) rfl hr rfl fun u hu => ?_
  have hhel := State.hel_of_bare_eq hu i.toNat
  rw [withRecord_of_present _ hi (by rw [hhel, he]; decide), if_pos (by rw [hhel, he])]

theorem pointOperand_of_ne {q : Byte} (hq : q ≠ 255) : pointOperand q = some q.toNat := by
  unfold pointOperand
  exact if_neg hq

theorem assign_refused_of_point {i : BitVec 16} {q : Byte} (hr : s.accepts (.assign i q) = true)
    (hi : i.toNat ≤ 1999) (hp : (s.hel i.toNat).state ≠ .absent) (he : (s.hel i.toNat).state ≠ .excluded)
    (hq : q ≠ 255) (hbad : 95 < q.toNat ∨ (s.point q.toNat).valid = false) :
    RefusedWith s (.assign i q) .dispatch .range := by
  refine refusedWith (w := ⟨.dispatch, _, _⟩) rfl hr rfl fun u hu => ?_
  have hhel := State.hel_of_bare_eq hu i.toNat
  have hbad' : ¬ u.receiverOk q.toNat = true := by
    simp only [State.receiverOk, State.point_of_bare_eq hu, Bool.and_eq_true, decide_eq_true_eq, not_and_or, not_le,
      Bool.not_eq_true]
    exact hbad
  rw [withRecord_of_present _ hi (hhel ▸ hp), if_neg (hhel ▸ he), pointOperand_of_ne hq]
  dsimp only
  rw [if_neg hbad']

theorem readList_refused {c : Instr} {b : Byte} (hr : s.accepts c = true) (hb : 11 < b.toNat)
    (hc : c = .readJoinList b ∨ c = .readQueue b) : RefusedWith s c .dispatch .range := by
  have hno : ¬ b.toNat ≤ 11 := Nat.not_le.2 hb
  rcases hc with rfl | rfl
  · exact refusedWith (w := ⟨.dispatch, _, _⟩) rfl hr rfl fun u _ => congrArg (u, ·) (if_neg (by simpa using hno))
  · exact refusedWith (w := ⟨.dispatch, _, _⟩) rfl hr rfl fun u _ => congrArg (u, ·) (if_neg (by simpa using hno))

theorem rateOf_eq_none {r : Byte} (h : 2 < r.toNat) : rateOf r = none := by
  unfold rateOf
  split <;> simp_all

theorem setLink_refused_of_rate {b e r tm q m d : Byte} {v : BitVec 16}
    (hr : s.accepts (.setLink b e r tm q m d v) = true) (h : 2 < r.toNat) :
    RefusedWith s (.setLink b e r tm q m d v) .dispatch .range := by
  refine refusedWith (w := ⟨.dispatch, _, _⟩) rfl hr rfl fun u _ => ?_
  rw [rateOf_eq_none h]

theorem segment_refused {c : Instr} {b : Byte} (hr : s.accepts c = true) (hb : 7 < b.toNat)
    (hc : c = .restartSegment b ∨ c = .readCapture b ∨ (∃ i a o, c = .postMaint b i a o)
      ∨ ∃ e r t q m d u, c = .setLink b e r t q m d u) : RefusedWith s c .dispatch .range := by
  rcases hc with rfl | rfl | ⟨i, a, o, rfl⟩ | ⟨e, r, t, q, m, d, v, rfl⟩
  · exact refusedWith (w := ⟨.dispatch, _, _⟩) rfl hr rfl fun _ _ => if_pos hb
  · exact refusedWith (w := ⟨.dispatch, _, _⟩) rfl hr rfl fun _ _ => if_pos hb
  · refine refusedWith (w := ⟨.dispatch, _, _⟩) rfl hr rfl fun u _ => ?_
    split
    · rfl
    · exact if_pos (.inl hb)
  · refine refusedWith (w := ⟨.dispatch, _, _⟩) rfl hr rfl fun u _ => ?_
    split
    · rfl
    · exact if_pos hb

end

/-- Settles O12: each refusal is the branch of its command's checks that answers the code. -/
theorem refusedChangesNothing : Obligations.RefusedChangesNothing := by
  unfold Obligations.RefusedChangesNothing
  rintro s c p code hcases hr
  rcases hcases with ⟨i, hi, rfl, rfl, hc⟩ | ⟨i, hi, ha, rfl, rfl, hc⟩ | ⟨i, hi, hp, rfl, rfl, hc⟩ | ⟨b, hb, rfl, hc⟩
    | ⟨b, hb, rfl, rfl, hc⟩ | ⟨b, e, r, tm, q, m, d, v, rfl, hrate, rfl, rfl⟩ | ⟨i, q, rfl, hi, rfl, hc⟩
    | ⟨i, k, d, x, y, z, a, r, h, writable, ranged, rfl, hi, rfl, rfl, hwritable, hranged, hc⟩
  · rcases hc with hc | hc | hc | hc | hc | hc | hc | ⟨k, d, x, y, z, a, r, rfl⟩
    · exact withRecord_refused_of_gt hr hi (.inl hc)
    · exact withRecord_refused_of_gt hr hi (.inr (.inl hc))
    · exact withRecord_refused_of_gt hr hi (.inr (.inr (.inl hc)))
    · exact withRecord_refused_of_gt hr hi (.inr (.inr (.inr (.inl hc))))
    · exact withRecord_refused_of_gt hr hi (.inr (.inr (.inr (.inr (.inl hc)))))
    · exact withRecord_refused_of_gt hr hi (.inr (.inr (.inr (.inr (.inr (.inl hc))))))
    · exact withRecord_refused_of_gt hr hi (.inr (.inr (.inr (.inr (.inr (.inr hc))))))
    · exact writeHeliostat_refused_of_gt i k d x y z a r hr hi
  · exact withRecord_refused_of_absent hr hi ha hc
  · rcases hc with ⟨rfl, hf⟩ | ⟨rfl, hn⟩
    · exact clearFault_refused hr hi hp hf
    · exact releaseStranded_refused hr hi hp hn
  · rcases hc with ⟨rfl, hz | hc⟩ | hc
    · exact withZone_refused_of_gt hr hb (.inl ⟨rfl, hz⟩)
    · exact readList_refused hr hb hc
    · exact withZone_refused_of_gt hr hb (.inr hc)
  · exact segment_refused hr hb hc
  · exact setLink_refused_of_rate hr hrate
  · rcases hc with ⟨he, rfl⟩ | ⟨hp, he, rfl, hq, hbad⟩
    · exact assign_refused_of_excluded hr hi he
    · exact assign_refused_of_point hr hi hp he hq hbad
  · have hw : (s.hel i.toNat).writable = writable := by
      rw [Bool.eq_iff_iff, Hel.writable_iff, hwritable]
    have hd : (identityOf k d x y z a r).inRange = ranged := by
      rw [Bool.eq_iff_iff, identityOf_inRange_iff, hranged]
    refine writeHeliostat_refused i k d x y z a r hr hi ?_
    rw [State.writeRefusal_eq, hw, hd]
    rcases hc with ⟨hno, rfl⟩ | ⟨hyes, hno, rfl⟩ | ⟨hyes, hyes', hfull, rfl⟩ | ⟨hyes, hyes', hroom, hdup, rfl⟩
    · rw [if_pos hno]
    · rw [if_neg (by simp [hyes]), if_pos hno]
    · rw [if_neg (by simp [hyes]), if_neg (by simp [hyes'])]
      exact if_pos hfull
    · rw [if_neg (by simp [hyes]), if_neg (by simp [hyes'])]
      exact (if_neg (Nat.not_le.2 hroom)).trans (if_pos hdup)

end Sys2Proof.Machine
end

section
/-! PROOFS. Writing, setting aside and retiring heliostats: WRITE_HELIOSTAT (R32, R33), EXCLUDE (R39) and RETIRE (R34). -/

-- One proof after another: begun all at once, the proofs of the whole text outgrow the check's memory.
set_option Elab.async false

namespace Sys2Proof.Machine

/-! ### Commands of the table on a present record -/

/-- `exec_acted` for a command of the table on a present record. -/
theorem exec_acted_of_present {c : Instr} {w : WireCmd} (hw : wire c = some w) {index : BitVec 16}
    {act : Nat → Hel → State → State × Code} {s : State} {code : Code} (hr : s.accepts c = true)
    (hi : index.toNat ≤ 1999) (hp : (s.hel index.toNat).state ≠ .absent)
    (hc : exec c s = deliver c (withRecord index act) s) {f : State → State} {P : State → Prop}
    (ha : ∀ x, act index.toNat (s.hel index.toNat) (s.setTxn w.port x) = (f (s.setTxn w.port x), code))
    (hf : ∀ u : State, (f u).txn (otherPort w.port) = u.txn (otherPort w.port) ∧ (f u).pau.supLeft = u.pau.supLeft)
    (h : ∀ x, P (f (s.setTxn w.port x))) (hP : ∀ v : State, P v.bare ↔ P v := by exact fun _ => Iff.rfl) :
    ∃ t, exec c s = .next t ∧ Delivered s t w.port code ∧ P t := by
  refine exec_acted hw hr hc (fun x => ?_) hf h hP
  rw [withRecord_of_present act hi (by rwa [State.setTxn_hel]), State.setTxn_hel, ha]

/-- A command of the table that its own checks refuse. -/
theorem refusedWith_of_present {c : Instr} {w : WireCmd} (hw : wire c = some w) {index : BitVec 16}
    {act : Nat → Hel → State → State × Code} {s : State} {code : Code} (hr : s.accepts c = true)
    (hi : index.toNat ≤ 1999) (hp : (s.hel index.toNat).state ≠ .absent)
    (hc : exec c s = deliver c (withRecord index act) s)
    (ha : ∀ u : State, act index.toNat (s.hel index.toNat) u = (u, code)) : RefusedWith s c w.port code := by
  refine refusedWith hw hr hc fun u hu => ?_
  have hhel := State.hel_of_bare_eq hu index.toNat
  rw [withRecord_of_present act hi (hhel ▸ hp), hhel, ha]

/-! ### WRITE_HELIOSTAT -/

section
variable {s : State} (i : BitVec 16) (k d : Byte) (x y z : BitVec 32) (a r : BitVec 16)

/-- The checks of R32 pass. -/
theorem State.writeRefusal_eq_none {j : Nat} {e : Identity} (hw : (s.hel j).writable = true) (hd : e.inRange = true)
    (hroom : (s.othersIn e.segment j).length < 250) (hnew : ∀ n ∈ s.othersIn e.segment j, (s.hel n).drop ≠ e.drop) :
    s.writeRefusal j e = none := by
  rw [State.writeRefusal_eq, if_neg (by simp [hw]), if_neg (by simp [hd]), if_neg (Nat.not_le.2 hroom),
    if_neg (by simpa using hnew)]

/-- WRITE_HELIOSTAT that passes its checks. -/
theorem writeHeliostat_acted {P : State → Prop} (hr : s.accepts (.writeHeliostat i k d x y z a r) = true)
    (hi : i.toNat ≤ 1999) (hcheck : s.writeRefusal i.toNat (identityOf k d x y z a r) = none)
    (h : ∀ n, P ((s.setTxn .dispatch n).writeRecord i.toNat (identityOf k d x y z a r)))
    (hP : ∀ v : State, P v.bare ↔ P v := by exact fun _ => Iff.rfl) :
    ∃ t, exec (.writeHeliostat i k d x y z a r) s = .next t ∧ Delivered s t .dispatch .done ∧ P t := by
  refine exec_acted (w := ⟨.dispatch, 0x10, _⟩) rfl hr rfl
    (f := fun u => u.writeRecord i.toNat (identityOf k d x y z a r)) (fun n => ?_) (fun u => ?_) h hP
  · have hpass : (s.setTxn .dispatch n).writeRefusal i.toNat (identityOf k d x y z a r) = none := hcheck
    rw [if_neg hi.not_gt]
    split
    next c hc => cases hc.symm.trans hpass
    next => rfl
  · unfold State.writeRecord
    dsimp only
    split
    · exact ⟨rfl, rfl⟩
    · split <;> exact ⟨rfl, rfl⟩

end

/-- Settles O13: an empty record passes the check of its state, and the write from ABSENT sets one record. -/
theorem writeHeliostatFresh : Obligations.WriteHeliostatFresh := by
  unfold Obligations.WriteHeliostatFresh
  intro s i k d x y z a r hr hi hempty hk hd1 hd2 hpos ha hrefl hroom hnew
  have hpass : s.writeRefusal i.toNat (identityOf k d x y z a r) = none :=
    State.writeRefusal_eq_none (by rw [hempty]; rfl)
      ((identityOf_inRange_iff k d x y z a r).2 ⟨hk, hd1, hd2, ha, hrefl, hpos⟩) hroom hnew
  refine writeHeliostat_acted i k d x y z a r hr hi hpass fun n => ?_
  have hwritten : (s.setTxn .dispatch n).writeRecord i.toNat (identityOf k d x y z a r)
      = (s.setTxn .dispatch n).setHel i.toNat (Hel.fresh (identityOf k d x y z a r)) :=
    if_pos (by rw [State.setTxn_hel, hempty]; rfl)
  rw [hwritten]
  exact ⟨State.hel_setHel_same _ _ _, fun j hj => (State.hel_setHel _ _ _ _).trans (if_neg hj), rfl⟩

/-- A write of a present record with a new address. -/
theorem State.writeRecord_of_moved {s : State} {i : Nat} {d : Identity} (hp : (s.hel i).state ≠ .absent)
    (hmoved : ¬ ((s.hel i).segment = d.segment ∧ (s.hel i).drop = d.drop)) :
    s.writeRecord i d = ((((s.unsweep i).orphan (s.hel i).segment i).urgentRemove (s.hel i).segment i).setHel i
      ((s.hel i).rewritten d).readdressed) :=
  (if_neg hp).trans (if_neg hmoved)

/-- A write of a present record whose address stands. -/
theorem State.writeRecord_of_stays {s : State} {i : Nat} {d : Identity} (hp : (s.hel i).state ≠ .absent)
    (hstays : (s.hel i).segment = d.segment ∧ (s.hel i).drop = d.drop) :
    s.writeRecord i d = (s.unsweep i).setHel i ((s.hel i).rewritten d) :=
  (if_neg hp).trans (if_pos hstays)

/-- What a heliostat leaves behind on the segment of its old address (R113, R122). -/
theorem State.addressLeft_orphan_urgentRemove (s : State) (k i : Nat) :
    AddressLeft (s.seg k) (((s.orphan k i).urgentRemove k i).seg k) i
      ∧ ∀ j, j ≠ k → ((s.orphan k i).urgentRemove k i).seg j = s.seg j := by
  refine ⟨?_, fun j hj => ?_⟩
  · rw [State.urgentRemove, State.seg_modSeg_same, State.orphan, State.seg_modSeg_same]
    exact addressLeft (s.seg k) i
  · rw [State.urgentRemove, State.seg_modSeg, if_neg hj, State.orphan, State.seg_modSeg, if_neg hj]

/-- Settles O14: the record is rewritten, and where its address changes the old segment lets go of it. -/
theorem writeHeliostatPresent : Obligations.WriteHeliostatPresent := by
  unfold Obligations.WriteHeliostatPresent
  rintro s i k d x y z a r h moved rfl rfl hr hi hstate hdep hk hd1 hd2 hpos ha hrefl hroom hnew
  have hpass : s.writeRefusal i.toNat (identityOf k d x y z a r) = none :=
    State.writeRefusal_eq_none ((Hel.writable_iff _).2 ⟨.inr hstate, hdep⟩)
      ((identityOf_inRange_iff k d x y z a r).2 ⟨hk, hd1, hd2, ha, hrefl, hpos⟩) hroom hnew
  have hpresent : (s.hel i.toNat).state ≠ .absent := by
    intro h
    rcases hstate with hs | ⟨hs, -⟩ <;> cases hs.symm.trans h
  refine writeHeliostat_acted i k d x y z a r hr hi hpass fun n => ?_
  by_cases hstays : (s.hel i.toNat).segment = k.toNat ∧ (s.hel i.toNat).drop = d.toNat
  · have hmoved : ((s.hel i.toNat).segment != k.toNat || (s.hel i.toNat).drop != d.toNat) = false := by simp [hstays]
    rw [State.writeRecord_of_stays (s := s.setTxn .dispatch n) (d := identityOf k d x y z a r) hpresent hstays, hmoved]
    exact ⟨State.hel_setHel_same _ _ _, rfl, fun h => (by cases h), fun _ => rfl,
      fun j hj => (State.hel_setHel _ _ _ _).trans (if_neg hj), fun _ _ => rfl, rfl⟩
  · have hmoved : ((s.hel i.toNat).segment != k.toNat || (s.hel i.toNat).drop != d.toNat) = true := by
      simpa [imp_iff_not_or] using hstays
    obtain ⟨hleft, hothers⟩ :=
      ((s.setTxn .dispatch n).unsweep i.toNat).addressLeft_orphan_urgentRemove (s.hel i.toNat).segment i.toNat
    rw [State.writeRecord_of_moved (s := s.setTxn .dispatch n) (d := identityOf k d x y z a r) hpresent hstays, hmoved]
    refine ⟨?_, rfl, fun _ => hleft, fun h => (by cases h), fun j hj => (State.hel_setHel _ _ _ _).trans (if_neg hj),
      hothers, rfl⟩
    rw [State.hel_setHel_same]
    simp [Hel.readdressed, Hel.rewritten, Hel.withIdentity, identityOf]

/-! ### EXCLUDE -/

/-- Settles O17: a heliostat that may be set aside loses its urgent entry, and any other is refused. -/
theorem exclude : Obligations.Exclude := by
  unfold Obligations.Exclude
  rintro s i h rfl hr hi hp
  by_cases hok : ((s.hel i.toNat).state = .stowed ∨ (s.hel i.toNat).state = .standby ∨ (s.hel i.toNat).state = .offline)
      ∧ (s.hel i.toNat).stranded = none ∧ (s.hel i.toNat).departing = false
  · simp only [if_pos hok]
    obtain ⟨hstate, hflux, hdep⟩ := hok
    refine exec_acted_of_present (w := ⟨.dispatch, _, _⟩) rfl hr hi hp rfl
      (f := fun u => (u.urgentRemove (s.hel i.toNat).segment i.toNat).modHel i.toNat fun h => { h with state := .excluded })
      (fun n => ?_) (fun u => ⟨rfl, rfl⟩) fun n => ?_
    · have hmay : ¬ ((s.hel i.toNat).state ≠ .stowed ∧ (s.hel i.toNat).state ≠ .standby
          ∧ (s.hel i.toNat).state ≠ .offline) := by tauto
      rw [if_neg hmay, if_neg (by simp [hflux, hdep])]
    · refine ⟨?_, ?_, fun j hj => ?_, fun k => ?_, fun k hk => ?_, rfl⟩
      · rw [State.hel_modHel_same]; rfl
      · rw [State.modHel_seg, State.urgentRemove, State.seg_modSeg_same]; rfl
      · exact (State.hel_modHel _ _ _ _).trans (if_neg hj)
      · rw [State.modHel_seg, State.urgentRemove, State.seg_modSeg]
        split <;> rename_i h
        · rw [h]; rfl
        · rfl
      · rw [State.modHel_seg, State.urgentRemove, State.seg_modSeg, if_neg hk]; rfl
  · simp only [if_neg hok]
    refine refusedWith_of_present (w := ⟨.dispatch, _, _⟩) rfl hr hi hp rfl fun u => ?_
    split
    next => rfl
    next hstate =>
      have hcheck : ((s.hel i.toNat).stranded.isSome || (s.hel i.toNat).departing) = true := by
        by_contra hno
        simp only [Bool.or_eq_true, not_or, Bool.not_eq_true, Option.isSome_eq_false_iff, Option.isNone_iff_eq_none] at hno
        exact hok ⟨by tauto, hno⟩
      rw [if_pos hcheck]

/-! ### RETIRE -/

section
variable (s : State) (i : Nat)

theorem State.writeAssignment_eq (x : Option Nat) : s.writeAssignment i x =
    { s with hels := (s.writeAssignment i x).hels, points := (s.writeAssignment i x).points } := by
  unfold State.writeAssignment
  dsimp only
  split <;> split <;> rfl

theorem State.clearDeparture_eq : s.clearDeparture i =
    { s with hels := (s.clearDeparture i).hels, zones := (s.clearDeparture i).zones } := by
  unfold State.clearDeparture
  dsimp only
  split
  · split <;> rfl
  · rfl

/-- The heliostat's point and zone forget it. -/
def State.forget (s : State) (i : Nat) : State := (s.writeAssignment i none).clearDeparture i

theorem State.forget_eq : s.forget i =
    { s with hels := (s.forget i).hels, points := (s.forget i).points, zones := (s.forget i).zones } := by
  have hclear := (s.writeAssignment i none).clearDeparture_eq i
  have hwrite := s.writeAssignment_eq i none
  rw [← State.forget] at hclear
  rw [hclear, hwrite]

theorem State.hel_forget {j : Nat} (hj : j ≠ i) : (s.forget i).hel j = s.hel j := by
  rw [State.forget, State.hel_clearDeparture, if_neg (fun h => hj h.1), State.hel_writeAssignment, if_neg hj]

theorem State.point_forget (q : Nat) : (s.forget i).point q =
    { s.point q with inUse := (s.point q).inUse - one ((s.hel i).assignment == some q) } := by
  rw [State.forget, State.point_clearDeparture, State.point_writeAssignment]
  rfl

theorem State.zone_forget (z : Nat) : (s.forget i).zone z =
    if (s.hel i).departing = true ∧ (s.hel i).departureZone = some z then
      { s.zone z with pendingDepartures := (s.zone z).pendingDepartures - 1 }
    else s.zone z := by
  rw [State.forget, State.zone_clearDeparture, State.hel_writeAssignment, if_pos rfl, State.zone_writeAssignment]

theorem State.retireRecord_eq : s.retireRecord i =
    (((((s.forget i).urgentRemove (s.hel i).segment i).orphan (s.hel i).segment i).unsweep i).setHel i Hel.empty) := rfl

theorem State.seg_forget (k : Nat) : (s.forget i).seg k = s.seg k := by rw [State.forget_eq]; rfl

/-- What a retired heliostat leaves behind on its segment (R113, R122). -/
theorem State.addressLeft_retireRecord :
    AddressLeft (s.seg (s.hel i).segment) ((s.retireRecord i).seg (s.hel i).segment) i
      ∧ ∀ k, k ≠ (s.hel i).segment → (s.retireRecord i).seg k = s.seg k := by
  refine ⟨?_, fun k hk => ?_⟩
  · rw [State.retireRecord_eq, State.setHel_seg, State.unsweep_seg, State.orphan, State.seg_modSeg_same,
      State.urgentRemove, State.seg_modSeg_same, State.seg_forget]
    exact addressLeft _ i
  · rw [State.retireRecord_eq, State.setHel_seg, State.unsweep_seg, State.orphan, State.seg_modSeg, if_neg hk,
      State.urgentRemove, State.seg_modSeg, if_neg hk, State.seg_forget]

theorem State.retireRecord_point (q : Nat) : (s.retireRecord i).point q = (s.forget i).point q := by
  simp only [State.retireRecord_eq, State.setHel_point, State.unsweep_point, State.orphan, State.urgentRemove,
    State.modSeg_point]

theorem State.retireRecord_zone (z : Nat) : (s.retireRecord i).zone z = (s.forget i).zone z := by
  simp only [State.retireRecord_eq, State.setHel_zone, State.unsweep_zone, State.orphan, State.urgentRemove,
    State.modSeg_zone]

theorem State.retireRecord_ppt : (s.retireRecord i).ppt = s.ppt := by
  simp only [State.retireRecord_eq, State.setHel_ppt, State.unsweep_ppt, State.orphan, State.urgentRemove,
    State.modSeg_ppt]
  rw [State.forget_eq]

theorem State.retireRecord_pau : (s.retireRecord i).pau = s.pau := by
  simp only [State.retireRecord_eq, State.setHel_pau, State.unsweep_pau, State.orphan, State.urgentRemove,
    State.modSeg_pau]
  rw [State.forget_eq]

theorem State.retireRecord_devents : (s.retireRecord i).devents = s.devents := by
  simp only [State.retireRecord_eq, State.setHel_devents, State.unsweep_devents, State.orphan, State.urgentRemove,
    State.modSeg_devents]
  rw [State.forget_eq]

theorem State.retireRecord_sweep : (s.retireRecord i).sweep =
    { s.sweep with remaining := s.sweep.remaining.filter (· != i) } := by
  have hsweep : (s.forget i).sweep = s.sweep := by rw [State.forget_eq]
  rw [State.retireRecord_eq, ← hsweep]
  generalize s.forget i = u
  rfl

theorem State.retireRecord_rest : (s.retireRecord i).rest = { s with sweep := (s.retireRecord i).sweep }.rest := by
  have hforget : (s.forget i).rest = s.rest := by
    rw [State.forget_eq]
    rfl
  have hretire : (s.retireRecord i).rest = { (s.forget i).rest with sweep := (s.retireRecord i).sweep } := by
    rw [State.retireRecord_eq]
    generalize s.forget i = u
    rfl
  rw [hretire, hforget]
  rfl

theorem State.hel_retireRecord (j : Nat) : (s.retireRecord i).hel j = if j = i then Hel.empty else s.hel j := by
  simp only [State.retireRecord_eq, State.hel_setHel, State.unsweep_hel, State.orphan, State.urgentRemove,
    State.modSeg_hel]
  split
  next => rfl
  next hj => exact s.hel_forget i hj

theorem State.point_retireRecord (q : Nat) : (s.retireRecord i).point q =
    { s.point q with inUse := (s.point q).inUse - one ((s.hel i).assignment == some q) } := by
  rw [State.retireRecord_point, State.point_forget]

theorem State.zone_retireRecord (z : Nat) : (s.retireRecord i).zone z =
    if (s.hel i).departing = true ∧ (s.hel i).departureZone = some z then
      { s.zone z with pendingDepartures := (s.zone z).pendingDepartures - 1 }
    else s.zone z := by
  rw [State.retireRecord_zone, State.zone_forget]

/-- A re-derivation of FIELD_CLEAR writes nothing of the rest of the state. -/
theorem State.refreshClear_rest : s.refreshClear.rest = s.rest := by
  unfold State.refreshClear
  generalize s.fieldIsClear = b
  dsimp only
  split <;> rfl

end

/-- Settles O20: the record's point, zone, segment and sweep forget it, and it becomes the empty one. -/
theorem retire : Obligations.Retire := by
  unfold Obligations.Retire
  rintro s i h rfl hr hi hp
  by_cases hok : ((s.hel i.toNat).state = .stowed ∨ (s.hel i.toNat).state = .excluded ∨ (s.hel i.toNat).state = .offline)
      ∧ (s.hel i.toNat).stranded = none
  · simp only [if_pos hok]
    obtain ⟨hstate, hflux⟩ := hok
    refine exec_acted_of_present (w := ⟨.dispatch, _, _⟩) rfl hr hi hp rfl
      (f := fun u => (u.retireRecord i.toNat).refreshClear) (fun n => ?_) (fun u => ?_) fun n => ?_
    · have hmay : ¬ ((s.hel i.toNat).state ≠ .stowed ∧ (s.hel i.toNat).state ≠ .excluded
          ∧ (s.hel i.toNat).state ≠ .offline) := by tauto
      rw [if_neg hmay, if_neg (by simp [hflux])]
    · rw [State.refreshClear_pau, State.retireRecord_pau]
      exact ⟨(State.refreshClear_ppt _).trans (u.retireRecord_ppt _), rfl⟩
    · generalize hu : s.setTxn _ n = u
      subst hu
      obtain ⟨hleft, hothers⟩ := State.addressLeft_retireRecord (s.setTxn .dispatch n) i.toNat
      simp only [State.refreshClear_hel, State.refreshClear_point, State.refreshClear_zone, State.refreshClear_seg,
        State.refreshClear_sweep, State.refreshClear_devents, State.refreshClear_rest, State.hel_retireRecord,
        State.point_retireRecord, State.zone_retireRecord, State.setTxn_hel, State.setTxn_point, State.setTxn_zone]
      refine ⟨if_pos trivial, fun q hq => ?_, fun q hq => ?_, fun z hd hz => ?_, fun z => ?_, hleft, hothers, ?_,
        fun j hj => if_neg hj, ?_, ?_⟩
      · rw [hq, one_some_beq_some, if_pos rfl]
      · rw [beq_false_of_ne (Ne.symm hq)]; rfl
      · rw [if_pos ⟨hd, hz⟩]
      · split <;> rfl
      · rw [State.retireRecord_sweep]; rfl
      · rw [State.retireRecord_devents]; rfl
      · rw [State.retireRecord_rest]; rfl
  · simp only [if_neg hok]
    refine refusedWith_of_present (w := ⟨.dispatch, _, _⟩) rfl hr hi hp rfl fun u => ?_
    split
    next => rfl
    next hstate =>
      have hcheck : (s.hel i.toNat).stranded.isSome = true := by
        rw [Option.isSome_iff_ne_none]
        exact fun hno => hok ⟨by tauto, hno⟩
      rw [if_pos hcheck]

end Sys2Proof.Machine
end

section
/-! PROOFS. The release of stranded flux: CLEAR_FAULT (R41) and RELEASE_STRANDED (R42). -/

-- One proof after another: begun all at once, the proofs of the whole text outgrow the check's memory.
set_option Elab.async false

namespace Sys2Proof.Machine

/-! ### A zone's committed flux -/

/-- A zone's committed flux is a matter of its join list, its stranded flux and the contributions (R64). -/
theorem State.committed_congr {s t : State} {z : Nat} (hlist : (t.zone z).joinList = (s.zone z).joinList)
    (hstranded : (t.zone z).stranded = (s.zone z).stranded) (hflux : ∀ i, t.pEff (t.hel i) = s.pEff (s.hel i)) :
    t.committed z = s.committed z := by
  simp only [State.committed, State.joinSum, hlist, hstranded, hflux]

theorem State.pEff_congr {s t : State} {g h : Hel} (hscu : t.scu = s.scu) (hsegment : g.segment = h.segment)
    (hclear : g.pClear = h.pClear) : t.pEff g = s.pEff h := by
  simp only [State.pEff, State.shade, hscu, hsegment, hclear]
  rfl

/-! ### A stranded amount leaves its zone -/

section
variable (s : State) (i z : Nat)

/-- A release that brings an OVER zone within its limit ends that state, and writes nothing else (R57). -/
theorem State.zone_leaveOver (y : Nat) : (s.leaveOver z).zone y = { s.zone y with state :=
    if y = z ∧ (s.zone y).state = .over ∧ (s.overLimit y) = false then (if (s.zone y).hold then .held else .normal)
    else (s.zone y).state } := by
  unfold State.leaveOver
  by_cases hover : (s.zone z).state = .over ∧ s.overLimit z = false
  · rw [if_pos hover, State.zone_modZone]
    by_cases hy : y = z
    · subst hy
      simp only [if_true, hover.1, hover.2, and_self]
    · rw [if_neg hy, if_neg fun h => hy h.1]
  · rw [if_neg hover, if_neg]
    rintro ⟨rfl, h⟩
    exact hover h

theorem State.leaveOver_eq : s.leaveOver z = { s with zones := (s.leaveOver z).zones } := by
  unfold State.leaveOver
  split <;> rfl

theorem State.hel_leaveOver (j : Nat) : (s.leaveOver z).hel j = s.hel j := by
  rw [State.leaveOver_eq]
  rfl

/-- The stranded amount `st` of heliostat `i` is returned. -/
def State.unstrand (s : State) (i : Nat) (st : Stranded) : State :=
  (s.modZone st.zone fun zn => { zn with stranded := zn.stranded - st.amount }).modHel i
    fun h => { h with stranded := none }

theorem State.releaseFlux_of_some {st : Stranded} (h : (s.hel i).stranded = some st) :
    s.releaseFlux i = (s.unstrand i st).leaveOver st.zone := by
  rw [State.releaseFlux, h]
  rfl

theorem State.releaseFlux_of_none (h : (s.hel i).stranded = none) : s.releaseFlux i = s := by
  rw [State.releaseFlux, h]

theorem State.releaseFlux_eq : s.releaseFlux i =
    { s with hels := (s.releaseFlux i).hels, zones := (s.releaseFlux i).zones } := by
  cases h : (s.hel i).stranded with
  | none => rw [s.releaseFlux_of_none i h]
  | some st =>
    rw [s.releaseFlux_of_some i h, State.leaveOver_eq]
    rfl

theorem State.hel_releaseFlux (j : Nat) : (s.releaseFlux i).hel j =
    if j = i then { s.hel i with stranded := none } else s.hel j := by
  cases h : (s.hel i).stranded with
  | none =>
    rw [s.releaseFlux_of_none i h]
    split
    next hj => rw [hj, ← h]
    next => rfl
  | some st =>
    rw [s.releaseFlux_of_some i h, State.hel_leaveOver, State.unstrand, State.hel_modHel]
    rfl

/-- A stranded amount's zone after its release: its stranded flux falls, and R57 is applied to it. -/
theorem State.zone_releaseFlux : (s.releaseFlux i).zone z = { s.zone z with
    stranded := (s.zone z).stranded - (s.hel i).strandedIn z
    state := if (∃ st, (s.hel i).stranded = some st ∧ st.zone = z) ∧ (s.zone z).state = .over
        ∧ (s.releaseFlux i).committed z ≤ s.limitW z then (if (s.zone z).hold then .held else .normal)
      else (s.zone z).state } := by
  cases h : (s.hel i).stranded with
  | none =>
    rw [s.releaseFlux_of_none i h, if_neg (fun ⟨⟨_, hst, _⟩, _⟩ => by cases hst), Hel.strandedIn, h]
    rfl
  | some st =>
    have hzone (y : Nat) : (s.unstrand i st).zone y = if y = st.zone then
        { s.zone y with stranded := (s.zone y).stranded - st.amount } else s.zone y := by
      rw [State.unstrand, State.modHel_zone, State.zone_modZone]
      split
      next hy => rw [hy]
      next => rfl
    have hcommitted : (s.releaseFlux i).committed z = (s.unstrand i st).committed z := by
      refine State.committed_congr ?_ ?_ fun j => ?_
      · rw [s.releaseFlux_of_some i h, State.zone_leaveOver]
      · rw [s.releaseFlux_of_some i h, State.zone_leaveOver]
      · rw [s.releaseFlux_of_some i h, State.leaveOver_eq]
        rfl
    have hlimit : (s.unstrand i st).limitW z = s.limitW z := by
      rw [State.limitW, hzone, State.limitW]
      split <;> rfl
    have hover : (s.unstrand i st).overLimit z = false ↔ (s.releaseFlux i).committed z ≤ s.limitW z := by
      rw [hcommitted, ← hlimit, State.overLimit, decide_eq_false_iff_not, Nat.not_lt]
    rw [s.releaseFlux_of_some i h, State.zone_leaveOver, ← s.releaseFlux_of_some i h]
    simp only [hover, Hel.strandedIn, h, Option.some.injEq, exists_eq_left', hzone]
    by_cases hz : z = st.zone
    · subst hz
      rw [if_pos rfl, if_pos rfl]
    · rw [if_neg hz, if_neg (Ne.symm hz), if_neg (fun h => hz h.1), if_neg (fun h => hz h.1.symm)]
      rfl

end

/-! ### The two commands -/

/-- CLEAR_FAULT and RELEASE_STRANDED release the flux and end the departure; they differ in what they make of the record
(R41, R42). -/
theorem exec_faultRelease {s : State} {i : BitVec 16} {c : Instr}
    (hc : (c = .clearFault i ∧ (s.hel i.toNat).state = .faulted) ∨ (c = .releaseStranded i
      ∧ ((s.hel i.toNat).state = .offline ∨ (s.hel i.toNat).state = .faulted) ∧ (s.hel i.toNat).stranded.isSome)) :
    ∃ (w : WireCmd) (act : Nat → Hel → State → State × Code) (g : State → State),
      wire c = some w ∧ w.port = .dispatch ∧ exec c s = deliver c (withRecord i act) s
      ∧ (∀ u : State, act i.toNat (s.hel i.toNat) u
          = ((g ((u.releaseFlux i.toNat).clearDeparture i.toNat)).refreshClear, .done))
      ∧ ∀ u, g u = { u with hels := (g u).hels } ∧ ∀ j, (g u).hel j = if j = i.toNat then { u.hel j with
          state := if c = .clearFault i then .offline else (u.hel j).state
          dev := if c = .clearFault i then 0 else (u.hel j).dev } else u.hel j := by
  rcases hc with ⟨rfl, hstate⟩ | ⟨rfl, hstate, hsome⟩
  · refine ⟨_, _, fun u => u.modHel i.toNat fun h => { h with state := .offline, dev := 0 }, rfl, rfl, rfl,
      fun u => if_pos hstate, fun u => ⟨rfl, fun j => ?_⟩⟩
    rw [State.hel_modHel]
    split
    next hj => rw [hj, if_pos rfl, if_pos rfl]
    next => rfl
  · refine ⟨_, _, id, rfl, rfl, rfl, fun u => ?_, fun u => ⟨rfl, fun j => ?_⟩⟩
    · have hmay : ¬ ((s.hel i.toNat).state ≠ .offline ∧ (s.hel i.toNat).state ≠ .faulted) := by tauto
      rw [if_neg hmay, if_neg (by simpa using Option.isSome_iff_ne_none.1 hsome)]
      rfl
    · have hne : ¬ Instr.releaseStranded i = .clearFault i := fun h => by cases h
      simp only [if_neg hne]
      split <;> rfl

/-- Settles O19: the release, the end of the departure and the record's change, read off field by field. -/
theorem faultReleases : Obligations.FaultReleases := by
  unfold Obligations.FaultReleases
  rintro s i h c rfl hi hr hc
  have hpresent : (s.hel i.toNat).state ≠ .absent := by
    intro ha
    rcases hc with ⟨-, hs⟩ | ⟨-, hs | hs, -⟩ <;> cases hs.symm.trans ha
  obtain ⟨w, act, g, hw, hport, hexec, hact, hg⟩ := exec_faultRelease hc
  have hgeq (u : State) := (hg u).1
  rw [← hport]
  refine exec_acted_of_present hw hr hi hpresent hexec (f := fun u =>
    (g ((u.releaseFlux i.toNat).clearDeparture i.toNat)).refreshClear) (fun n => hact _) (fun u => ?_) fun n => ?_
  · rw [hport, State.refreshClear_pau, hgeq, State.clearDeparture_eq, State.releaseFlux_eq]
    exact ⟨State.refreshClear_ppt _, rfl⟩
  · rw [hport]
    have hhel (j : Nat) : (((s.setTxn .dispatch n).releaseFlux i.toNat).clearDeparture i.toNat).hel j =
        if j = i.toNat then { s.hel j with
            stranded := none
            departing := false
            departureZone := if (s.hel j).departing = true then none else (s.hel j).departureZone }
        else s.hel j := by
      simp only [State.hel_clearDeparture, State.hel_releaseFlux, State.setTxn_hel, if_true]
      by_cases hj : j = i.toNat
      · subst hj
        cases (s.hel i.toNat).departing <;> simp
      · rw [if_neg (fun h => hj h.1), if_neg hj, if_neg hj]
    have hzone (z : Nat) : (((s.setTxn .dispatch n).releaseFlux i.toNat).clearDeparture i.toNat).zone z =
        { ((s.setTxn .dispatch n).releaseFlux i.toNat).zone z with pendingDepartures :=
          if (s.hel i.toNat).departing = true ∧ (s.hel i.toNat).departureZone = some z then
            (s.zone z).pendingDepartures - 1 else (s.zone z).pendingDepartures } := by
      have hpending : (((s.setTxn .dispatch n).releaseFlux i.toNat).zone z).pendingDepartures
          = (s.zone z).pendingDepartures := by
        rw [State.zone_releaseFlux, State.setTxn_zone]
      rw [State.zone_clearDeparture, State.hel_releaseFlux, if_pos rfl, State.setTxn_hel]
      split
      next => rw [hpending]
      next => rw [← hpending]
    generalize hw' : ((s.setTxn .dispatch n).releaseFlux i.toNat).clearDeparture i.toNat = v at hhel hzone ⊢
    have hv : v = { s.setTxn .dispatch n with hels := v.hels, zones := v.zones } := by
      rw [← hw', State.clearDeparture_eq, State.releaseFlux_eq]
    have hghel := (hg v).2
    have hgzone (z : Nat) : (g v).zone z = v.zone z := by rw [(hg v).1]; rfl
    have hcommitted (z : Nat) : (g v).refreshClear.committed z
        = ((s.setTxn .dispatch n).releaseFlux i.toNat).committed z := by
      refine State.committed_congr ?_ ?_ fun j => State.pEff_congr ?_ ?_ ?_
      · rw [State.refreshClear_zone, hgzone, hzone]
      · rw [State.refreshClear_zone, hgzone, hzone]
      · rw [State.refreshClear_scu, (hg v).1, hv, State.releaseFlux_eq]
      · rw [State.refreshClear_hel, hghel, hhel, State.hel_releaseFlux]
        split
        next hj => rw [hj]; rfl
        next => rfl
      · rw [State.refreshClear_hel, hghel, hhel, State.hel_releaseFlux]
        split
        next hj => rw [hj]; rfl
        next => rfl
    have hlimit (z : Nat) : (s.setTxn .dispatch n).limitW z
        = 1000 * min (s.zone z).dispatchLimit (s.zone z).protectLimit := by
      rw [State.limitW, State.setTxn_zone]
      rfl
    simp only [State.refreshClear_hel, State.refreshClear_zone, State.refreshClear_segs, State.refreshClear_points,
      State.refreshClear_devents, State.refreshClear_rest, hcommitted, hghel, hgzone, hhel, hzone, State.zone_releaseFlux,
      State.setTxn_hel, State.setTxn_zone, hlimit, if_true]
    refine ⟨trivial, fun st hst => ?_, fun z hd hz => if_pos ⟨hd, hz⟩, fun z => ⟨trivial, trivial, rfl⟩,
      fun z hz => ?_, fun z => trivial, fun j hj => (if_neg hj).trans (if_neg hj), ?_, ?_, ?_, ?_⟩
    · rw [Hel.strandedIn, hst]
      simp only [if_true]
    · rw [Hel.strandedIn]
      split
      next st hst => rw [if_neg (hz st hst), Nat.sub_zero]
      next => exact Nat.sub_zero _
    · rw [(hg v).1, hv]; rfl
    · rw [(hg v).1, hv]; rfl
    · rw [(hg v).1, hv]; rfl
    · rw [(hg v).1, hv]; rfl

end Sys2Proof.Machine
end

section
/-! PROOFS. ASSIGN (R35 to R37): the heliostat leaves its collection, its assignment is written, and it joins a queue. -/

-- One proof after another: begun all at once, the proofs of the whole text outgrow the check's memory.
set_option Elab.async false

namespace Sys2Proof.Machine

/-! ### Out of the old collection -/

section
variable (s : State) (i : Nat)

/-- The record of a heliostat that an ASSIGN has moved out of its collection (R36, R61). -/
def State.leftRecord (s : State) (h : Hel) : Hel :=
  { h with
      state := match h.state with
        | .onTarget | .queued | .standby => .stowed
        | x => x
      onAlternate := if h.state = .onTarget then false else h.onAlternate
      departing := h.departing || decide (h.state = .onTarget)
      departureZone := if h.state = .onTarget then some (s.joinZone h) else h.departureZone }

theorem State.hel_leaveForAssign (j : Nat) : (s.leaveForAssign i).hel j =
    if j = i then s.leftRecord (s.hel i) else s.hel j := by
  unfold State.leaveForAssign State.leftRecord
  cases hs : (s.hel i).state with
  | onTarget => simp [State.hel_depart]
  | queued => simp [State.hel_dequeue]
  | standby => simp [State.hel_modHel]
  | _ =>
    simp only [reduceCtorEq, if_false, decide_false, Bool.or_false]
    by_cases hj : j = i
    · rw [if_pos hj, hj, ← hs]
    · rw [if_neg hj]

theorem State.zone_leaveForAssign (z : Nat) : (s.leaveForAssign i).zone z = { s.zone z with
    joinList := if (s.hel i).state = .onTarget ∧ z = s.joinZone (s.hel i) then (s.zone z).joinList.erase i
      else (s.zone z).joinList
    pendingDepartures := (s.zone z).pendingDepartures
      + if (s.hel i).state = .onTarget ∧ z = s.joinZone (s.hel i) then 1 else 0
    queue := if (s.hel i).state = .queued ∧ z = s.assignedZone (s.hel i) then (s.zone z).queue.erase i
      else (s.zone z).queue } := by
  unfold State.leaveForAssign
  cases hs : (s.hel i).state with
  | onTarget =>
    simp only [State.zone_depart, reduceCtorEq, false_and, if_false, true_and]
    split <;> rfl
  | queued =>
    simp only [State.zone_dequeue, reduceCtorEq, false_and, if_false, true_and]
    split <;> rfl
  | _ => simp

theorem State.leaveForAssign_frame : SettleFrame s (s.leaveForAssign i) := by
  unfold State.leaveForAssign
  split
  · exact s.depart_frame i _
  · exact s.dequeue_frame i _
  · exact .modHel s i rfl
  all_goals exact .refl s

theorem State.leaveForAssign_eq : s.leaveForAssign i =
    { s with
        hels := (s.leaveForAssign i).hels
        points := (s.leaveForAssign i).points
        zones := (s.leaveForAssign i).zones
        segs := (s.leaveForAssign i).segs } := by
  unfold State.leaveForAssign
  split
  · rw [State.depart_eq]
  all_goals rfl

theorem State.mem_urgent_leaveForAssign (ho : (s.hel i).state = .onTarget) :
    i ∈ ((s.leaveForAssign i).seg (s.hel i).segment).urgent := by
  rw [State.leaveForAssign, ho]
  exact s.mem_urgent_depart i _

end

/-! ### The new assignment -/

/-- The assignment is written with its in-use counts, the fields of R35 are cleared, and no sweep in flight visits the
heliostat (R35, R85). -/
def State.assigned (s : State) (i : Nat) (p : Option Nat) : State :=
  ((s.writeAssignment i p).modHel i Hel.assignCleared).unsweep i

section
variable (s : State) (i : Nat) (p : Option Nat)

theorem State.hel_assigned (j : Nat) : (s.assigned i p).hel j =
    if j = i then ({ s.hel i with assignment := p } : Hel).assignCleared else s.hel j := by
  rw [State.assigned, State.unsweep_hel, State.hel_modHel, State.hel_writeAssignment, State.hel_writeAssignment,
    if_pos rfl]
  split <;> rfl

theorem State.zone_assigned (z : Nat) : (s.assigned i p).zone z = s.zone z := by
  rw [State.assigned, State.unsweep_zone, State.modHel_zone, State.zone_writeAssignment]

theorem State.point_assigned (q : Nat) : (s.assigned i p).point q = { s.point q with
    inUse := (s.point q).inUse - one ((s.hel i).assignment == some q) + one (p == some q) } := by
  rw [State.assigned, State.unsweep_point, State.modHel_point, State.point_writeAssignment]

/-- Records, points and the sweep apart, an assignment written leaves the state. -/
theorem State.assigned_eq : s.assigned i p = { s with
    hels := (s.assigned i p).hels
    points := (s.assigned i p).points
    sweep := { s.sweep with remaining := s.sweep.remaining.filter (· != i) } } := by
  have hwrite := s.writeAssignment_eq i p
  unfold State.assigned
  generalize s.writeAssignment i p = u at hwrite ⊢
  rw [hwrite]
  rfl

end

/-! ### The whole move -/

section
variable (s : State) (i : Nat) (p : Option Nat)

theorem State.assignTo_of_stow (h : s.stowInEffect = true) : s.assignTo i p = s.assigned i p := by
  simp [State.assignTo, State.assigned, h]

theorem State.assignTo_of_moves (h : s.stowInEffect = false) : s.assignTo i p =
    if p.isSome = true ∧ (((s.leaveForAssign i).assigned i p).hel i).state = .stowed then
      ((s.leaveForAssign i).assigned i p).enqueue i
    else (s.leaveForAssign i).assigned i p := by
  simp [State.assignTo, State.assigned, h]

/-- The zone of a point given, as the written record names it. -/
theorem State.assignedZone_assigned :
    (s.assigned i p).assignedZone ((s.assigned i p).hel i) = s.assignedZone { s.hel i with assignment := p } := by
  rw [State.hel_assigned, if_pos rfl]
  simp only [State.assignedZone, Hel.assignCleared]
  cases p with
  | none => rfl
  | some q =>
    dsimp only
    rw [State.point_assigned]

end

section
variable {s : State} {i : Nat} (p : Option Nat) (hpresent : (s.hel i).state ≠ .absent)
  (hexcluded : (s.hel i).state ≠ .excluded)
include hpresent hexcluded

/-- The heliostat is STOWED once it has left its collection, unless it does not move. -/
theorem State.state_assigned_leaveForAssign : (((s.leaveForAssign i).assigned i p).hel i).state = .stowed
    ↔ (s.hel i).state ≠ .offline ∧ (s.hel i).state ≠ .faulted := by
  have hstate : (((s.leaveForAssign i).assigned i p).hel i).state = (s.leftRecord (s.hel i)).state := by
    rw [State.hel_assigned, if_pos rfl, State.hel_leaveForAssign, if_pos rfl]
    rfl
  rw [hstate, State.leftRecord]
  cases hs : (s.hel i).state with
  | absent => exact absurd hs hpresent
  | excluded => exact absurd hs hexcluded
  | _ => simp

/-- The record after an ASSIGN (R35, R36, R37). -/
theorem State.hel_assignTo (j : Nat) : (s.assignTo i p).hel j =
    if j = i then { ({ s.hel i with assignment := p } : Hel).assignCleared with
      state := if s.stowInEffect = true ∨ (s.hel i).state = .offline ∨ (s.hel i).state = .faulted then (s.hel i).state
        else if p.isSome then .queued else .stowed
      departing := (s.hel i).departing || (!s.stowInEffect && decide ((s.hel i).state = .onTarget))
      departureZone := if s.stowInEffect = false ∧ (s.hel i).state = .onTarget then some (s.joinZone (s.hel i))
        else (s.hel i).departureZone } else s.hel j := by
  cases hstow : s.stowInEffect with
  | true =>
    rw [State.assignTo_of_stow _ _ _ hstow, State.hel_assigned]
    split
    next => simp [Hel.assignCleared]
    next => rfl
  | false =>
    have hstate := State.state_assigned_leaveForAssign p hpresent hexcluded
    have hleft (k : Nat) := State.hel_assigned (s.leaveForAssign i) i p k
    simp only [State.hel_leaveForAssign, if_true] at hleft
    rw [State.assignTo_of_moves _ _ _ hstow]
    by_cases hj : j = i
    · subst hj
      rw [if_pos rfl]
      by_cases hjoin : p.isSome = true ∧ (s.hel j).state ≠ .offline ∧ (s.hel j).state ≠ .faulted
      · rw [if_pos ⟨hjoin.1, hstate.2 hjoin.2⟩, State.hel_enqueue, if_pos rfl, hleft, if_pos rfl]
        simp [Hel.assignCleared, State.leftRecord, hjoin]
      · rw [if_neg (fun h => hjoin ⟨h.1, hstate.1 h.2⟩), hleft, if_pos rfl]
        cases hs : (s.hel j).state <;> simp_all [Hel.assignCleared, State.leftRecord]
    · rw [if_neg hj]
      split
      · rw [State.hel_enqueue, if_neg hj, hleft, if_neg hj, if_neg hj]
      · rw [hleft, if_neg hj, if_neg hj]

/-- The zones after an ASSIGN (R36, R61): the old collection is left, and the queue of the point's zone joined. -/
theorem State.zone_assignTo (z : Nat) : (s.assignTo i p).zone z = { s.zone z with
    joinList := if s.stowInEffect = false ∧ (s.hel i).state = .onTarget ∧ z = s.joinZone (s.hel i) then
        (s.zone z).joinList.erase i else (s.zone z).joinList
    pendingDepartures := (s.zone z).pendingDepartures
      + if s.stowInEffect = false ∧ (s.hel i).state = .onTarget ∧ z = s.joinZone (s.hel i) then 1 else 0
    queue := (if s.stowInEffect = false ∧ (s.hel i).state = .queued ∧ z = s.assignedZone (s.hel i) then
        (s.zone z).queue.erase i else (s.zone z).queue)
      ++ if p.isSome = true ∧ z = s.assignedZone { s.hel i with assignment := p } ∧ s.stowInEffect = false
          ∧ (s.hel i).state ≠ .offline ∧ (s.hel i).state ≠ .faulted then [i] else [] } := by
  cases hstow : s.stowInEffect with
  | true =>
    rw [State.assignTo_of_stow _ _ _ hstow, State.zone_assigned]
    simp
  | false =>
    have hstate := State.state_assigned_leaveForAssign p hpresent hexcluded
    have hzone : (s.leaveForAssign i).assignedZone { (s.leaveForAssign i).hel i with assignment := p }
        = s.assignedZone { s.hel i with assignment := p } := by
      simp only [State.assignedZone]
      cases p with
      | none => rfl
      | some q => exact congrArg (·.zone) ((s.leaveForAssign_frame i).2.2.1 q)
    rw [State.assignTo_of_moves _ _ _ hstow]
    by_cases hjoin : p.isSome = true ∧ (s.hel i).state ≠ .offline ∧ (s.hel i).state ≠ .faulted
    · rw [if_pos ⟨hjoin.1, hstate.2 hjoin.2⟩, State.zone_enqueue, State.assignedZone_assigned, hzone,
        State.zone_assigned, State.zone_leaveForAssign]
      by_cases hz : z = s.assignedZone { s.hel i with assignment := p }
      · subst hz
        simp [hjoin]
      · simp [hz]
    · rw [if_neg (fun h => hjoin ⟨h.1, hstate.1 h.2⟩), State.zone_assigned, State.zone_leaveForAssign]
      have hno : ¬ (p.isSome = true ∧ z = s.assignedZone { s.hel i with assignment := p } ∧ false = false
          ∧ (s.hel i).state ≠ .offline ∧ (s.hel i).state ≠ .faulted) := fun h => hjoin ⟨h.1, h.2.2.2⟩
      rw [if_neg hno]
      simp only [true_and, List.append_nil]

end

/-- Everything else an ASSIGN touches: the counts of points, urgent queues and the sweep. -/
structure AssignFollowed (s t : State) (i : Nat) (p : Option Nat) : Prop where
  point : ∀ q, (t.point q).still = { (s.point q).still with
    inUse := (s.point q).inUse - one ((s.hel i).assignment == some q) + one (p == some q) }
  seg : ∀ k, (t.seg k).still = (s.seg k).still
  urgent : s.stowInEffect = false → (s.hel i).state = .onTarget → i ∈ (t.seg (s.hel i).segment).urgent
  sweep : t.sweep = { s.sweep with remaining := s.sweep.remaining.filter (· != i) }
  devents : t.devents = s.devents
  rest : t.rest = { s with sweep := t.sweep }.rest
  ppt : t.ppt = s.ppt
  pau : t.pau = s.pau

/-- An assignment written on `l`, which the move out of a collection made of `s`; a queue joined changes nothing here. -/
theorem AssignFollowed.of_left {s l t : State} {i : Nat} {p : Option Nat} (hl : SettleFrame s l) (heq : l = { s with
      hels := l.hels, points := l.points, zones := l.zones, segs := l.segs })
    (hgiven : (l.hel i).assignment = (s.hel i).assignment)
    (hurgent : s.stowInEffect = false → (s.hel i).state = .onTarget → i ∈ (l.seg (s.hel i).segment).urgent)
    (ht : t = { l.assigned i p with hels := t.hels, zones := t.zones }) : AssignFollowed s t i p := by
  obtain ⟨-, -, hpoint, hstill, -⟩ := hl
  have heq' := l.assigned_eq i p
  have hseg (k : Nat) : t.seg k = l.seg k := by rw [ht, heq']; rfl
  refine ⟨fun q => ?_, fun k => by rw [hseg, hstill], fun h1 h2 => by rw [hseg]; exact hurgent h1 h2, ?_, ?_, ?_, ?_, ?_⟩
  · have hq : t.point q = (l.assigned i p).point q := by rw [ht]; rfl
    rw [hq, State.point_assigned, hgiven, ← hpoint]
    have hin : (l.point q).inUse = (s.point q).inUse := congrArg (·.inUse) (hpoint q)
    rw [hin]
    rfl
  · rw [ht, heq', heq]
  · rw [ht, heq', heq]
  · rw [ht, heq', heq]; rfl
  · rw [ht, heq', heq]
  · rw [ht, heq', heq]

theorem State.assignTo_followed (s : State) (i : Nat) (p : Option Nat) : AssignFollowed s (s.assignTo i p) i p := by
  cases hstow : s.stowInEffect with
  | true =>
    rw [State.assignTo_of_stow _ _ _ hstow]
    exact .of_left (.refl s) rfl rfl (fun h => by rw [hstow] at h; cases h) rfl
  | false =>
    have hgiven : ((s.leaveForAssign i).hel i).assignment = (s.hel i).assignment := by
      rw [State.hel_leaveForAssign, if_pos rfl]
      rfl
    rw [State.assignTo_of_moves _ _ _ hstow]
    refine .of_left (s.leaveForAssign_frame i) (s.leaveForAssign_eq i) hgiven
      (fun _ ho => s.mem_urgent_leaveForAssign i ho) ?_
    split <;> rfl

/-! ### The command -/

section
variable {s : State} {i : BitVec 16} {q : Byte} (hr : s.accepts (.assign i q) = true) (hi : i.toNat ≤ 1999)
  (hpresent : (s.hel i.toNat).state ≠ .absent) (hexcluded : (s.hel i.toNat).state ≠ .excluded)
include hr hi hpresent hexcluded

/-- ASSIGN of a valid receiver point, or of NONE. -/
theorem assign_acted {P : State → Prop} (hq : ∀ p, pointOperand q = some p → s.receiverOk p = true)
    (h : ∀ n, P (((s.setTxn .dispatch n).assignTo i.toNat (pointOperand q)).refreshClear))
    (hP : ∀ v : State, P v.bare ↔ P v := by exact fun _ => Iff.rfl) :
    ∃ t, exec (.assign i q) s = .next t ∧ Delivered s t .dispatch .done ∧ P t := by
  refine exec_acted_of_present (w := ⟨.dispatch, _, _⟩) rfl hr hi hpresent rfl
    (f := fun u => (u.assignTo i.toNat (pointOperand q)).refreshClear) (fun n => ?_) (fun u => ?_) h hP
  · rw [if_neg hexcluded]
    cases hp : pointOperand q with
    | none => rfl
    | some p => exact if_pos (hq p hp)
  · obtain ⟨-, -, -, -, -, -, hppt, hpau⟩ := u.assignTo_followed i.toNat (pointOperand q)
    rw [State.refreshClear_pau, hpau]
    exact ⟨(State.refreshClear_ppt _).trans hppt, rfl⟩

end

/-- Settles O15: the record and the zones by their laws under ASSIGN, and what follows them. -/
theorem assign : Obligations.Assign := by
  unfold Obligations.Assign
  constructor
  · rintro s i q h rfl hr hi hpresent hexcluded hq hvalid
    have hop : pointOperand q = some q.toNat := pointOperand_of_ne (by rintro rfl; exact absurd hq (by decide))
    refine assign_acted hr hi hpresent hexcluded (fun p hp => ?_) fun n => ?_
    · cases hop.symm.trans hp
      simp [State.receiverOk, hq, hvalid]
    · have hhel := State.hel_assignTo (s := s.setTxn .dispatch n) (some q.toNat) hpresent hexcluded
      have hzone := State.zone_assignTo (s := s.setTxn .dispatch n) (some q.toNat) hpresent hexcluded
      obtain ⟨hpoint, hseg, hurgent, hsweep, hdevents, hrest, -, -⟩ :=
        (s.setTxn .dispatch n).assignTo_followed i.toNat (some q.toNat)
      simp only [State.setTxn_hel, State.setTxn_zone, State.setTxn_point, State.setTxn_seg, State.setTxn_stowInEffect,
        State.joinZone_setTxn, State.assignedZone_setTxn] at hhel hzone hpoint hseg hurgent
      rw [hop]
      generalize (s.setTxn .dispatch n).assignTo i.toNat (some q.toNat) = v at *
      have hself := (hhel i.toNat).trans (if_pos rfl)
      have hin (p : Nat) : (v.point p).inUse = (s.point p).inUse - one ((s.hel i.toNat).assignment == some p)
          + one (some q.toNat == some p) := congrArg (·.inUse) (hpoint p)
      simp only [State.refreshClear_hel, State.refreshClear_zone, State.refreshClear_point, State.refreshClear_seg,
        State.refreshClear_sweep, State.refreshClear_devents, State.refreshClear_rest]
      refine ⟨by rw [hself]; rfl, by rw [hself]; rfl, by rw [hself]; rfl, by rw [hself]; rfl, by rw [hself]; rfl, ?_,
        by rw [hself]; rfl, fun hstow ho => ⟨?_, hurgent hstow ho, fun z => ?_, fun z => ?_⟩, fun hno => ⟨?_, fun z => ?_⟩,
        fun z => ?_, fun hnew => ?_, fun p hp hne => ?_, hsweep, fun j hj => (hhel j).trans (if_neg hj), fun z => ?_,
        fun p hp hne => ?_, hseg, hdevents, hrest⟩
      · split
        next hstay => rw [hself]; exact if_pos hstay
        next hmove =>
          have hgo : s.stowInEffect = false ∧ (s.hel i.toNat).state ≠ .offline ∧ (s.hel i.toNat).state ≠ .faulted := by
            simpa [not_or] using hmove
          refine ⟨by rw [hself]; exact if_neg hmove, ?_⟩
          rw [hzone]
          simp [State.assignedZone, hgo]
      · rw [hself]
        exact if_pos ⟨hstow, ho⟩
      · rw [hzone]
        simp [hstow, ho]
      · rw [hzone]
        simp [hstow, ho]
      · rw [hself]
        exact if_neg fun h => hno.elim (fun hs => by rw [hs] at h; cases h.1) (· h.2)
      · have hstay : ¬ (s.stowInEffect = false ∧ (s.hel i.toNat).state = .onTarget ∧ z = s.joinZone (s.hel i.toNat)) :=
          fun h => hno.elim (fun hs => by rw [hs] at h; cases h.1) (· h.2.1)
        rw [hzone, if_neg hstay, if_neg hstay]
        exact ⟨rfl, rfl⟩
      · rw [hzone]
        simp [State.assignedZone]
      · rw [hin, beq_false_of_ne hnew, one_some_beq_some, if_pos rfl]
        rfl
      · rw [hin, hp, one_some_beq_some, one_some_beq_some, if_pos rfl, if_neg hne, Nat.add_zero]
      · rw [hzone]; rfl
      · rw [hpoint, beq_false_of_ne (Ne.symm hp), one_some_beq_some, if_neg hne]
        rfl
  · rintro s i h rfl hr hi hpresent hexcluded
    refine assign_acted hr hi hpresent hexcluded (fun p hp => by cases hp) fun n => ?_
    have hhel := State.hel_assignTo (s := s.setTxn .dispatch n) none hpresent hexcluded
    have hzone := State.zone_assignTo (s := s.setTxn .dispatch n) none hpresent hexcluded
    obtain ⟨hpoint, hseg, hurgent, hsweep, hdevents, hrest, -, -⟩ :=
      (s.setTxn .dispatch n).assignTo_followed i.toNat none
    have hop : pointOperand 255 = none := rfl
    simp only [State.setTxn_hel, State.setTxn_zone, State.setTxn_point, State.setTxn_seg, State.setTxn_stowInEffect,
      State.joinZone_setTxn, State.assignedZone_setTxn] at hhel hzone hpoint hseg hurgent
    rw [hop]
    generalize (s.setTxn .dispatch n).assignTo i.toNat none = v at *
    have hself := (hhel i.toNat).trans (if_pos rfl)
    have hin (p : Nat) : (v.point p).inUse
        = (s.point p).inUse - one ((s.hel i.toNat).assignment == some p) + one ((none : Option Nat) == some p) :=
      congrArg (·.inUse) (hpoint p)
    simp only [State.refreshClear_hel, State.refreshClear_zone, State.refreshClear_point, State.refreshClear_seg,
      State.refreshClear_sweep, State.refreshClear_devents, State.refreshClear_rest]
    refine ⟨by rw [hself]; rfl, by rw [hself]; rfl, by rw [hself]; rfl, by rw [hself]; rfl, by rw [hself]; rfl,
      by rw [hself]; rfl, by rw [hself]; rfl, fun hstow ho => ⟨?_, hurgent hstow ho, fun z => ?_, fun z => ?_⟩,
      fun hno => ⟨?_, fun z => ?_⟩, fun z => ?_, fun p hp => ?_, hsweep, fun j hj => (hhel j).trans (if_neg hj),
      fun z => ?_, fun p hp => ?_, hseg, hdevents, hrest⟩
    · rw [hself]
      exact if_pos ⟨hstow, ho⟩
    · rw [hzone]
      simp [hstow, ho]
    · rw [hzone]
      simp [hstow, ho]
    · rw [hself]
      exact if_neg fun h => hno.elim (fun hs => by rw [hs] at h; cases h.1) (· h.2)
    · have hstay : ¬ (s.stowInEffect = false ∧ (s.hel i.toNat).state = .onTarget ∧ z = s.joinZone (s.hel i.toNat)) :=
        fun h => hno.elim (fun hs => by rw [hs] at h; cases h.1) (· h.2.1)
      rw [hzone, if_neg hstay, if_neg hstay]
      exact ⟨rfl, rfl⟩
    · rw [hzone]
      simp
    · rw [hin, hp, one_some_beq_some, one_none_beq_some, if_pos rfl, Nat.add_zero]
    · rw [hzone]; rfl
    · rw [hpoint, beq_false_of_ne (Ne.symm hp), one_none_beq_some]
      rfl

end Sys2Proof.Machine
end

section
/-! PROOFS. The zone records and the aim point table: HOLD, UNHOLD (R55), the limits (R53, R54) and WRITE_AIMPOINT
(R49, R50). -/

-- One proof after another: begun all at once, the proofs of the whole text outgrow the check's memory.
set_option Elab.async false

namespace Sys2Proof.Machine

/-! ### A zone settled or held -/

/-- `exec_acted` for a command of the zone records. -/
theorem exec_acted_of_zone {c : Instr} {w : WireCmd} (hw : wire c = some w) {p : Port} (hp : w.port = p) {zone : Byte}
    {act : Nat → State → State × Code} {s : State} {code : Code} (hr : s.accepts c = true) (hz : zone.toNat ≤ 11)
    (hc : exec c s = deliver c (withZone zone act) s) {f : State → State} {P : State → Prop}
    (ha : ∀ x, act zone.toNat (s.setTxn p x) = (f (s.setTxn p x), code))
    (hf : ∀ u : State, (f u).txn (otherPort p) = u.txn (otherPort p) ∧ (f u).pau.supLeft = u.pau.supLeft)
    (h : ∀ x, P (f (s.setTxn p x))) (hP : ∀ v : State, P v.bare ↔ P v := by exact fun _ => Iff.rfl) :
    ∃ t, exec c s = .next t ∧ Delivered s t p code ∧ P t := by
  subst hp
  refine exec_acted hw hr hc (fun x => ?_) hf h hP
  rw [withZone_of_le act _ hz, ha]

theorem State.refreshClear_txn (s : State) (p : Port) : s.refreshClear.txn p = s.txn p := by
  cases p
  · exact s.refreshClear_dpt
  · exact s.refreshClear_ppt

theorem State.zoneSafe_refreshClear {s : State} {z : Nat} (h : s.zoneSafe z) : s.refreshClear.zoneSafe z :=
  s.refreshClear_frame.zoneSafe_of_sublist (by rw [State.refreshClear_zone]) h

/-- Settlements write neither a port nor the supervision countdown. -/
theorem State.settleAll_delivers (s : State) (p : Port) :
    s.settleAll.refreshClear.txn p = s.txn p ∧ s.settleAll.refreshClear.pau.supLeft = s.pau.supLeft := by
  have hpau : s.settleAll.pau = s.pau := (settleKeeps_pau s.pau).settleAll rfl
  rw [State.refreshClear_txn, State.refreshClear_pau, hpau]
  exact ⟨(settleKeeps_txn p (s.txn p)).settleAll rfl, rfl⟩

theorem State.settle_delivers (s : State) (z : Nat) (p : Port) :
    (s.settle z).refreshClear.txn p = s.txn p ∧ (s.settle z).refreshClear.pau.supLeft = s.pau.supLeft := by
  have hpau : (s.settle z).pau = s.pau := (settleKeeps_pau s.pau).settle z rfl
  rw [State.refreshClear_txn, State.refreshClear_pau, hpau]
  exact ⟨(settleKeeps_txn p (s.txn p)).settle z rfl, rfl⟩

/-- What a port has received lies outside the frame of a settlement. -/
theorem SettleFrame.of_modZone_setTxn {s t : State} {z : Nat} {f : Zone → Zone} {p : Port} {n : Txn}
    (h : SettleFrame ((s.setTxn p n).modZone z f) t) : SettleFrame (s.modZone z f) t :=
  SettleFrame.trans (.of_bare_eq (by rw [State.modZone_setTxn, State.setTxn_bare])) h

/-- A zone rewritten and settled: what the settlement may change, and the zone safe. -/
theorem State.modZone_settled {s : State} (z : Nat) (f : Zone → Zone) (n : Txn) (p : Port) :
    SettleFrame (s.modZone z f) ((((s.setTxn p n).modZone z f).settle z).refreshClear)
      ∧ (((s.setTxn p n).modZone z f).settle z).refreshClear.zoneSafe z :=
  ⟨SettleFrame.of_modZone_setTxn ((State.settle_frame _ _).trans (State.refreshClear_frame _)),
    State.zoneSafe_refreshClear (State.zoneSafe_settle _ z)⟩

/-- A zone rewritten and all zones settled. -/
theorem State.modZone_settledAll {s : State} (z : Nat) (f : Zone → Zone) (n : Txn) (p : Port) :
    SettleFrame (s.modZone z f) ((((s.setTxn p n).modZone z f).settleAll).refreshClear)
      ∧ (((s.setTxn p n).modZone z f).settleAll).refreshClear.zonesSafe :=
  ⟨SettleFrame.of_modZone_setTxn ((State.settleAll_frame _).trans (State.refreshClear_frame _)),
    fun y hy => State.zoneSafe_refreshClear (State.zonesSafe_settleAll _ y hy)⟩

/-- Settles O23: HOLD rewrites one zone; UNHOLD clears the hold and settles all twelve. -/
theorem holdUnhold : Obligations.HoldUnhold := by
  unfold Obligations.HoldUnhold
  intro s z hz
  refine ⟨fun hr => ?_, fun hr => ?_⟩
  · by_cases hheld : (s.zone z.toNat).hold = true
    · refine exec_acted_of_zone (w := ⟨.protection, _, _⟩) rfl rfl hr hz rfl (f := id) (fun n => ?_) (fun u => ⟨rfl, rfl⟩)
        fun n => ?_
      · rw [State.setTxn_zone, if_pos hheld]
        rfl
      · refine ⟨?_, fun y hy => rfl, rfl⟩
        rw [if_pos (.inl hheld), ← hheld]
        rfl
    · refine exec_acted_of_zone (w := ⟨.protection, _, _⟩) rfl rfl hr hz rfl (f := fun u => u.modZone z.toNat fun zn =>
        { zn with hold := true, state := if zn.state = .over then .over else .held }) (fun n => ?_) (fun u => ⟨rfl, rfl⟩)
        fun n => ?_
      · rw [State.setTxn_zone, if_neg hheld]
      · refine ⟨?_, fun y hy => (State.zone_modZone _ _ _ _).trans (if_neg hy), rfl⟩
        rw [State.zone_modZone_same]
        rw [State.setTxn_zone, Bool.eq_false_iff.2 hheld]
        by_cases hover : (s.zone z.toNat).state = .over
        · rw [if_pos hover, if_pos (.inr hover), hover]
        · rw [if_neg hover, if_neg (by simpa using hover)]
  · by_cases hheld : (s.zone z.toNat).hold = true
    · simp only [if_pos hheld]
      refine exec_acted_of_zone (w := ⟨.protection, _, _⟩) rfl rfl hr hz rfl
        (f := fun u => ((u.modZone z.toNat fun zn => { zn with hold := false }).settleAll).refreshClear) (fun n => ?_)
        (fun u => (State.settleAll_delivers _ _ :)) fun n => ?_
      · rw [State.setTxn_zone, if_pos hheld]
      · obtain ⟨hframe, hsafe⟩ :=
          State.modZone_settledAll (s := s) z.toNat (fun zn => { zn with hold := false }) n .protection
        generalize State.refreshClear _ = t at hframe hsafe ⊢
        have hstill := (hframe.2.1 z.toNat).trans (congrArg Zone.still (State.zone_modZone_same _ _ _))
        exact ⟨(congrArg (fun y : Zone => y.hold) hstill :), hframe, hsafe⟩
    · simp only [if_neg hheld]
      refine exec_acted_of_zone (w := ⟨.protection, _, _⟩) rfl rfl hr hz rfl (f := id) (fun n => ?_) (fun u => ⟨rfl, rfl⟩)
        fun n => ⟨Bool.eq_false_iff.2 hheld, rfl⟩
      rw [State.setTxn_zone, if_neg hheld]
      rfl

/-! ### The limits -/

/-- A zone that ends a settlement safe is within the lesser of the limits it was given, or has nothing aimed at it. -/
theorem State.zoneSafe_iff (s : State) (z : Nat) : s.zoneSafe z ↔
    s.committed z ≤ 1000 * min (s.zone z).dispatchLimit (s.zone z).protectLimit ∨ (s.zone z).joinList = [] := by
  rw [State.zoneSafe, State.overLimit, decide_eq_false_iff_not, Nat.not_lt]
  rfl

/-- Settles O24: the limit is written, and the settlement of the zone leaves it safe. -/
theorem limitWrites : Obligations.LimitWrites := by
  unfold Obligations.LimitWrites
  intro s z l hz
  refine ⟨fun hr => ?_, fun b hr => ?_⟩
  · refine exec_acted_of_zone (w := ⟨.protection, _, _⟩) rfl rfl hr hz rfl (f := fun u =>
      ((u.modZone z.toNat fun zn => { zn with protectLimit := l.toNat }).settle z.toNat).refreshClear) (fun n => rfl)
      (fun u => (State.settle_delivers _ z.toNat _ :)) fun n => ?_
    obtain ⟨hframe, hsafe⟩ := State.modZone_settled (s := s) z.toNat (fun zn => { zn with protectLimit := l.toNat }) n
      .protection
    generalize State.refreshClear _ = t at hframe hsafe ⊢
    have hstill := (hframe.2.1 z.toNat).trans (congrArg Zone.still (State.zone_modZone_same _ _ _))
    have hprotect : (t.zone z.toNat).protectLimit = l.toNat := (congrArg (fun y : Zone => y.protectLimit) hstill :)
    have hdispatch : (t.zone z.toNat).dispatchLimit = (s.zone z.toNat).dispatchLimit :=
      (congrArg (fun y : Zone => y.dispatchLimit) hstill :)
    refine ⟨hprotect, hframe, ?_⟩
    rw [State.zoneSafe_iff, hprotect, hdispatch] at hsafe
    exact hsafe
  · by_cases hb : b = 255 ∨ (96 ≤ b.toNat ∧ b.toNat ≤ 111)
    · have hop : standbyOperandOk b = true := by simpa [standbyOperandOk] using hb
      have hstandby : pointOperand b = if b = 255 then none else some b.toNat := rfl
      obtain ⟨t, hexec, hdel, hdispatch, hstandby', hframe, hlimit⟩ : ∃ t, exec (.setZone z l b) s = .next t
          ∧ Delivered s t .dispatch .done ∧ (t.zone z.toNat).dispatchLimit = l.toNat
          ∧ (t.zone z.toNat).standby = (if b = 255 then none else some b.toNat)
          ∧ SettleFrame (s.modZone z.toNat fun zn =>
              { zn with dispatchLimit := l.toNat, standby := if b = 255 then none else some b.toNat }) t
          ∧ (t.committed z.toNat ≤ 1000 * min l.toNat (s.zone z.toNat).protectLimit
            ∨ (t.zone z.toNat).joinList = []) := by
        refine exec_acted_of_zone (w := ⟨.dispatch, _, _⟩) rfl rfl hr hz rfl (f := fun u =>
            ((u.modZone z.toNat fun zn =>
            { zn with dispatchLimit := l.toNat, standby := pointOperand b }).settle z.toNat).refreshClear)
          (fun n => if_neg (by simp [hop])) (fun u => (State.settle_delivers _ z.toNat _ :)) fun n => ?_
        obtain ⟨hframe, hsafe⟩ := State.modZone_settled (s := s) z.toNat
          (fun zn => { zn with dispatchLimit := l.toNat, standby := pointOperand b }) n .dispatch
        generalize State.refreshClear _ = t at hframe hsafe ⊢
        have hstill := (hframe.2.1 z.toNat).trans (congrArg Zone.still (State.zone_modZone_same _ _ _))
        have hdispatch : (t.zone z.toNat).dispatchLimit = l.toNat := (congrArg (fun y : Zone => y.dispatchLimit) hstill :)
        have hprotect : (t.zone z.toNat).protectLimit = (s.zone z.toNat).protectLimit :=
          (congrArg (fun y : Zone => y.protectLimit) hstill :)
        rw [State.zoneSafe_iff, hprotect, hdispatch] at hsafe
        exact ⟨hdispatch, (congrArg (fun y : Zone => y.standby) hstill :), hframe, hsafe⟩
      refine ⟨t, hexec, fun _ => ⟨hdel, hdispatch, hstandby', hframe, hlimit⟩, fun hne hout => ?_⟩
      rcases hb with hb | ⟨hlo, hhi⟩
      · exact absurd hb hne
      · exact absurd hout (by omega)
    · have hop : ¬ standbyOperandOk b = true := by simpa [standbyOperandOk] using hb
      obtain ⟨t, hexec, hdel, hbare⟩ : RefusedWith s (.setZone z l b) .dispatch .range := by
        refine refusedWith (w := ⟨.dispatch, _, _⟩) rfl hr rfl fun u _ => ?_
        rw [withZone_of_le _ _ hz, if_pos (by simpa using hop)]
      exact ⟨t, hexec, fun h => absurd h hb, fun _ _ => ⟨hdel, hbare⟩⟩

/-! ### WRITE_AIMPOINT -/

/-- Check 4 of R49 in terms of the operand. -/
theorem State.alternateOk_pointOperand (s : State) (p alt : Byte) (zone : Nat) :
    s.alternateOk p.toNat zone (pointOperand alt) = false ↔ alt ≠ 255
      ∧ (95 < alt.toNat ∨ alt = p ∨ (s.point alt.toNat).valid = false ∨ (s.point alt.toNat).zone = zone) := by
  by_cases halt : alt = 255
  · rw [show pointOperand alt = none from if_pos halt]
    simp [State.alternateOk, halt]
  · rw [pointOperand_of_ne halt]
    have hsame : alt.toNat = p.toNat ↔ alt = p := BitVec.toNat_inj
    simp only [State.alternateOk, State.receiverOk, Bool.and_eq_false_iff, bne_eq_false_iff_eq, decide_eq_false_iff_not,
      not_le, hsame, halt, ne_eq, not_false_eq_true, true_and]
    tauto

theorem positionOk_eq_false (x y z : Int) : positionOk ⟨x, y, z⟩ = false ↔
    ∃ c ∈ [x, y, z], c < -1000000 ∨ 1000000 < c := by
  simp only [positionOk, inPlant, Bool.and_eq_false_iff, decide_eq_false_iff_not, not_le, List.mem_cons,
    List.not_mem_nil, or_false, exists_eq_or_imp, exists_eq_left, or_assoc]

/-- Checks made in an order, grouped by what they answer: `a`, `b`, `d` and `e` RANGE, `f` and `g` STATE; a standby point
(`c`) is exempt from those behind it. -/
theorem checks_in_order {a b c d e f g : Prop} [Decidable a] [Decidable b] [Decidable c] [Decidable d] [Decidable e]
    [Decidable f] [Decidable g] {ranged used : Bool} (hranged : ranged = true ↔ a ∨ b ∨ (¬ c ∧ d) ∨ (¬ c ∧ e))
    (hused : used = true ↔ ¬ c ∧ (f ∨ g)) :
    (if a then some Code.range else if b then some .range else if c then none else if d then some .range
      else if e then some .range else if f then some .state else if g then some .state else none)
      = if ranged = true then some .range else if used = true then some .state else none := by
  simp only [hranged, hused]
  by_cases ha : a
  · simp [ha]
  by_cases hb : b
  · simp [ha, hb]
  by_cases hc : c
  · simp [ha, hb, hc]
  by_cases hd : d
  · simp [ha, hb, hc, hd]
  by_cases he : e
  · simp [ha, hb, hc, hd, he]
  by_cases hf : f <;> simp [ha, hb, hc, hd, he, hf]

/-- The checks of R49 in terms of the operands. -/
theorem State.aimpointRefusal_eq (s : State) (p v : Byte) (x y z : BitVec 32) (zone alt : Byte) {other : Option Nat}
    (hother : other = if v = 0 ∨ alt = 255 then none else some alt.toNat) {ranged used : Bool}
    (hranged : ranged = true ↔ 111 < p.toNat
      ∨ (v ≠ 0 ∧ ∃ c ∈ [x.toInt, y.toInt, z.toInt], c < -1000000 ∨ 1000000 < c)
      ∨ (p.toNat ≤ 95 ∧ v ≠ 0 ∧ 11 < zone.toNat)
      ∨ (p.toNat ≤ 95 ∧ v ≠ 0 ∧ alt ≠ 255
        ∧ (95 < alt.toNat ∨ alt = p ∨ (s.point alt.toNat).valid = false ∨ (s.point alt.toNat).zone = zone.toNat)))
    (hused : used = true ↔ p.toNat ≤ 95
      ∧ (((s.point p.toNat).valid = true ∧ (v = 0 ∨ zone.toNat ≠ (s.point p.toNat).zone)
          ∧ (0 < (s.point p.toNat).inUse ∨ 0 < (s.point p.toNat).altLoad))
        ∨ (other ≠ (s.point p.toNat).alternate ∧ 0 < (s.point p.toNat).diverted))) :
    s.aimpointRefusal p.toNat (v != 0) ⟨x.toInt, y.toInt, z.toInt⟩ zone.toNat (pointOperand alt)
      = if ranged = true then some .range else if used = true then some .state else none := by
  rw [← positionOk_eq_false, ← State.alternateOk_pointOperand] at hranged
  have hwritten : (if (v != 0) = true then pointOperand alt else none) = other := by
    rw [hother, pointOperand]
    by_cases hv : v = 0
    · simp [hv]
    · by_cases ha : alt = 255
      · simp [ha]
      · rw [if_pos (by simpa using hv), if_neg ha, if_neg (fun h => h.elim hv ha)]
  unfold State.aimpointRefusal
  rw [hwritten]
  refine checks_in_order ?_ ?_
  · simp only [hranged, Bool.and_eq_true, bne_iff_ne, Bool.not_eq_true', decide_eq_true_eq, Nat.not_lt]
  · simp only [hused, Bool.and_eq_true, Bool.or_eq_true, bne_iff_ne, Bool.not_eq_true', bne_eq_false_iff_eq,
      decide_eq_true_eq, Nat.not_lt, and_assoc]

section
variable {s : State} {p v : Byte} {x y z : BitVec 32} {zone alt : Byte}
  (hr : s.accepts (.writeAimpoint p v x y z zone alt) = true)
include hr

/-- WRITE_AIMPOINT that a check refuses. -/
theorem writeAimpoint_refused {code : Code} (hcheck : s.aimpointRefusal p.toNat (v != 0) ⟨x.toInt, y.toInt, z.toInt⟩
      zone.toNat (pointOperand alt) = some code) :
    RefusedWith s (.writeAimpoint p v x y z zone alt) .dispatch code := by
  refine refusedWith (w := ⟨.dispatch, _, _⟩) rfl hr rfl fun u hu => ?_
  have hsame : u.aimpointRefusal p.toNat (v != 0) ⟨x.toInt, y.toInt, z.toInt⟩ zone.toNat (pointOperand alt)
      = some code := by
    have hbare : u.bare.aimpointRefusal p.toNat (v != 0) ⟨x.toInt, y.toInt, z.toInt⟩ zone.toNat (pointOperand alt)
        = s.bare.aimpointRefusal p.toNat (v != 0) ⟨x.toInt, y.toInt, z.toInt⟩ zone.toNat (pointOperand alt) := by
      rw [hu]
    exact hbare.trans hcheck
  rw [hsame]

/-- WRITE_AIMPOINT that passes its checks. -/
theorem writeAimpoint_acted {P : State → Prop} (hcheck : s.aimpointRefusal p.toNat (v != 0)
      ⟨x.toInt, y.toInt, z.toInt⟩ zone.toNat (pointOperand alt) = none)
    (h : ∀ n, P ((s.setTxn .dispatch n).writePoint p.toNat (v != 0) ⟨x.toInt, y.toInt, z.toInt⟩ zone.toNat
      (pointOperand alt)))
    (hP : ∀ t : State, P t.bare ↔ P t := by exact fun _ => Iff.rfl) :
    ∃ t, exec (.writeAimpoint p v x y z zone alt) s = .next t ∧ Delivered s t .dispatch .done ∧ P t := by
  refine exec_acted (w := ⟨.dispatch, _, _⟩) rfl hr rfl
    (f := fun u => u.writePoint p.toNat (v != 0) ⟨x.toInt, y.toInt, z.toInt⟩ zone.toNat (pointOperand alt))
    (fun n => ?_) (fun u => ⟨rfl, rfl⟩) h hP
  have hpass : (s.setTxn .dispatch n).aimpointRefusal p.toNat (v != 0) ⟨x.toInt, y.toInt, z.toInt⟩ zone.toNat
      (pointOperand alt) = none := hcheck
  dsimp only
  rw [hpass]

end

/-- Settles O21: the checks in their order, and the write of one point. -/
theorem writeAimpoint : Obligations.WriteAimpoint := by
  unfold Obligations.WriteAimpoint
  rintro s p v x y z zone alt a other ranged used hr rfl hother hranged hused
  have hcheck := s.aimpointRefusal_eq p v x y z zone alt hother hranged hused
  cases ranged with
  | true =>
    obtain ⟨t, hexec, hrefused⟩ := writeAimpoint_refused hr (hcheck.trans (if_pos rfl))
    exact ⟨t, hexec, fun _ => hrefused, fun h => by (cases h), fun h => by (cases h)⟩
  | false =>
    rw [if_neg (by decide)] at hcheck
    cases used with
    | true =>
      obtain ⟨t, hexec, hrefused⟩ := writeAimpoint_refused hr (hcheck.trans (if_pos rfl))
      exact ⟨t, hexec, fun h => by (cases h), fun _ _ => hrefused, fun _ h => by (cases h)⟩
    | false =>
      rw [if_neg (by decide)] at hcheck
      obtain ⟨t, hexec, hdel, hpoint, hothers, hbare⟩ : ∃ t, exec (.writeAimpoint p v x y z zone alt) s = .next t
          ∧ Delivered s t .dispatch .done
          ∧ t.point p.toNat = (if v = 0 then { s.point p.toNat with valid := false, alternate := none }
                else if p.toNat ≤ 95 then { s.point p.toNat with
                  valid := true, pos := ⟨x.toInt, y.toInt, z.toInt⟩, zone := zone.toNat, alternate := other }
                else { s.point p.toNat with valid := true, pos := ⟨x.toInt, y.toInt, z.toInt⟩ })
          ∧ (∀ q, q ≠ p.toNat → t.point q = s.point q) ∧ t.bare = { s with points := t.points }.bare := by
        refine writeAimpoint_acted hr hcheck fun n => ⟨?_, fun q hq => (State.point_modPoint _ _ _ _).trans (if_neg hq), rfl⟩
        rw [State.writePoint, State.point_modPoint_same, State.setTxn_point]
        by_cases hv : v = 0
        · rw [if_pos hv, if_pos (by simp [hv])]
        · rw [if_neg hv, if_neg (by simpa using hv)]
          have hgiven : pointOperand alt = other := by
            rw [hother, pointOperand]
            by_cases ha : alt = 255
            · rw [if_pos ha, if_pos (.inr ha)]
            · rw [if_neg ha, if_neg (fun h => h.elim hv ha)]
          by_cases hp : p.toNat ≤ 95
          · rw [if_pos hp, if_neg (by omega), hgiven]
          · rw [if_neg hp, if_pos (by omega)]
      exact ⟨t, hexec, fun h => by (cases h), fun _ h => by (cases h), fun _ _ => ⟨hdel, hpoint, hothers, hbare⟩⟩

end Sys2Proof.Machine
end

section
/-! PROOFS. The grant step of a settlement, told at once: which heliostats of a queue it makes ON_TARGET, and what that leaves
(R71, R72). -/

-- One proof after another: begun all at once, the proofs of the whole text outgrow the check's memory.
set_option Elab.async false

namespace Sys2Proof.Machine

/-! ### One grant -/

section
variable (s : State) (z i : Nat)

/-- A grant adds the heliostat's contribution to the zone's committed flux, and to no other zone's (R64). -/
theorem State.committed_grant : (s.grant z i).committed z = s.committed z + s.pEff (s.hel i) := by
  rw [(s.grant_frame z i).committed_eq, State.joinList_grant, if_pos rfl, State.committed, State.joinSum,
    List.map_append, List.sum_append, List.map_singleton, List.sum_singleton]
  omega

theorem State.limitW_eq (y : Nat) : s.limitW y = 1000 * min (s.zone y).dispatchLimit (s.zone y).protectLimit := rfl

theorem SettleFrame.pValid_eq {s t : State} (h : SettleFrame s t) (j : Nat) : (t.hel j).pValid = (s.hel j).pValid :=
  congrArg (·.pValid) (h.1 j)

variable {s z i} {rest : List Nat} (hq : (s.zone z).queue = i :: rest)
include hq

theorem State.queue_grant_of_head : ((s.grant z i).zone z).queue = rest := by
  rw [State.zone_grant, hq, List.tail_cons]
  exact if_pos rfl

/-- Whom a queue may grant once its head is granted. -/
theorem State.mayGrant_grant (m j : Nat) : (s.grant z i).mayGrant z m j ↔ s.mayGrant z (m + 1) j := by
  have hframe := s.grant_frame z i
  have hlimit : 1000 * min ((s.grant z i).zone z).dispatchLimit ((s.grant z i).zone z).protectLimit
      = 1000 * min (s.zone z).dispatchLimit (s.zone z).protectLimit := hframe.limitW_eq z
  have hsum : (((((s.grant z i).zone z).queue.take m).map fun j => (s.grant z i).pEff ((s.grant z i).hel j)).sum)
      = ((rest.take m).map fun j => s.pEff (s.hel j)).sum := by
    rw [State.queue_grant_of_head hq]
    exact congrArg (fun f : Nat → Nat => ((rest.take m).map f).sum) (funext hframe.pEff_eq)
  rw [State.mayGrant, State.mayGrant, State.roomFor, State.roomFor, hlimit, hsum, State.committed_grant,
    hframe.pValid_eq, hframe.pEff_eq, hq, List.take_succ_cons, List.map_cons, List.sum_cons]
  constructor
  · rintro ⟨hvalid, hroom⟩
    exact ⟨hvalid, by omega⟩
  · rintro ⟨hvalid, hroom⟩
    exact ⟨hvalid, by omega⟩

omit hq in
theorem State.grantable_iff : s.grantable z i = true ↔ s.mayGrant z 0 i := by
  simp only [State.grantable, State.mayGrant, State.roomFor, Bool.and_eq_true, decide_eq_true_eq, List.take_zero,
    List.map_nil, List.sum_nil, Nat.zero_add]
  rfl

end

/-! ### The grant loop -/

/-- A grant's record (R71, R63). -/
def Hel.granted (h : Hel) : Hel :=
  { h with
      state := .onTarget
      onAlternate := false
      dev := 0
      departing := false
      departureZone := if h.departing then none else h.departureZone }

/-- The first `n` of the queue of zone `z` are granted, of at most `k`, and the loop stops there; `stopped` says that it
stopped at one who may not be granted. -/
structure Granted (s t : State) (stopped : Bool) (z k n : Nat) : Prop where
  le_max : n ≤ k
  le_length : n ≤ (s.zone z).queue.length
  may : ∀ m i, m < n → (s.zone z).queue[m]? = some i → s.mayGrant z m i
  mayNot : ∀ i, n < k → (s.zone z).queue[n]? = some i → ¬ s.mayGrant z n i
  flag : stopped = true ↔ n < k ∧ n < (s.zone z).queue.length
  hel : ∀ i, t.hel i = if i ∈ (s.zone z).queue.take n then (s.hel i).granted else s.hel i
  zone : ∀ y, t.zone y = { s.zone y with
    joinList := if y = z then (s.zone y).joinList ++ (s.zone y).queue.take n else (s.zone y).joinList
    queue := if y = z then (s.zone y).queue.drop n else (s.zone y).queue
    pendingDepartures := (s.zone y).pendingDepartures - (((s.zone z).queue.take n).filter fun i =>
      (s.hel i).departing && (s.hel i).departureZone == some y).length }
  others : { t with hels := s.hels, zones := s.zones } = s

/-- No heliostat is granted. -/
theorem Granted.none {s : State} {stopped : Bool} {z k : Nat}
    (hflag : stopped = true ↔ 0 < k ∧ 0 < (s.zone z).queue.length)
    (hno : ∀ i, 0 < k → (s.zone z).queue[0]? = some i → ¬ s.mayGrant z 0 i) : Granted s s stopped z k 0 where
  le_max := Nat.zero_le _
  le_length := Nat.zero_le _
  may m i hm := absurd hm (Nat.not_lt_zero m)
  mayNot := hno
  flag := hflag
  hel i := by simp
  zone y := by simp
  others := rfl

/-- The head of the queue is granted, and then `n` more. -/
theorem Granted.head {s t : State} {stopped : Bool} {z i k n : Nat} {rest : List Nat} (hq : (s.zone z).queue = i :: rest)
    (hnew : i ∉ rest) (hmay : s.mayGrant z 0 i) (h : Granted (s.grant z i) t stopped z k n) :
    Granted s t stopped z (k + 1) (n + 1) := by
  have hrest := State.queue_grant_of_head hq
  obtain ⟨le_max, le_length, may, mayNot, flag, hel, zone, others⟩ := h
  rw [hrest] at le_length may mayNot flag hel zone
  have hother {j : Nat} (hj : j ∈ rest.take n) : (s.grant z i).hel j = s.hel j := by
    rw [State.hel_grant, if_neg]
    rintro rfl
    exact hnew (List.mem_of_mem_take hj)
  refine ⟨Nat.succ_le_succ le_max, ?_, fun m j hm hj => ?_, fun j hn hj => ?_, ?_, fun j => ?_, fun y => ?_, ?_⟩
  · rw [hq]
    exact Nat.succ_le_succ le_length
  · rw [hq] at hj
    cases m with
    | zero => exact Option.some.inj hj ▸ hmay
    | succ m => exact (State.mayGrant_grant hq m j).1 (may m j (Nat.lt_of_succ_lt_succ hm) hj)
  · rw [hq] at hj
    exact fun hm => mayNot j (Nat.lt_of_succ_lt_succ hn) hj ((State.mayGrant_grant hq n j).2 hm)
  · rw [flag, hq, List.length_cons, Nat.succ_lt_succ_iff, Nat.succ_lt_succ_iff]
  · rw [hel, hq, List.take_succ_cons]
    by_cases hj : j = i
    · subst hj
      rw [if_neg (fun h => hnew (List.mem_of_mem_take h)), if_pos List.mem_cons_self, State.hel_grant, if_pos rfl]
      rfl
    · by_cases hm : j ∈ rest.take n
      · rw [if_pos hm, if_pos (List.mem_cons_of_mem i hm), hother hm]
      · rw [if_neg hm, if_neg (fun h => (List.mem_cons.1 h).elim hj hm), State.hel_grant, if_neg hj]
  · have hfilter : ((rest.take n).filter fun j => ((s.grant z i).hel j).departing
        && ((s.grant z i).hel j).departureZone == some y)
        = (rest.take n).filter fun j => (s.hel j).departing && (s.hel j).departureZone == some y :=
      List.filter_congr fun j hj => by rw [hother hj]
    have hcount : ((s.zone y).pendingDepartures - one ((s.hel i).departing && (s.hel i).departureZone == some y))
          - ((rest.take n).filter fun j => (s.hel j).departing && (s.hel j).departureZone == some y).length
        = (s.zone y).pendingDepartures - ((i :: rest.take n).filter fun j =>
          (s.hel j).departing && (s.hel j).departureZone == some y).length := by
      rw [List.filter_cons, one]
      split
      · rw [List.length_cons, Nat.sub_sub, Nat.add_comm 1]
      · rfl
    rw [zone, hfilter, State.zone_grant, hq, List.take_succ_cons, hcount]
    by_cases hy : y = z
    · subst hy
      simp only [if_true, hq, List.tail_cons, List.take_succ_cons, List.drop_succ_cons, List.append_assoc,
        List.singleton_append]
    · simp only [if_neg hy]
  · have hgrant : { s.grant z i with hels := s.hels, zones := s.zones } = s := by
      rw [State.grant, State.clearDeparture_eq]
      rfl
    calc { t with hels := s.hels, zones := s.zones }
        = { { t with hels := (s.grant z i).hels, zones := (s.grant z i).zones } with
            hels := s.hels, zones := s.zones } := rfl
      _ = { s.grant z i with hels := s.hels, zones := s.zones } := by rw [others]
      _ = s := hgrant

/-- The grant loop grants the first heliostats of the queue, in its order (R71). -/
theorem granted_grantLoop (z k : Nat) {s : State} (hnodup : (s.zone z).queue.Nodup) :
    ∃ n, Granted s (grantLoop k z s).1 (grantLoop k z s).2 z k n := by
  induction k generalizing s with
  | zero => exact ⟨0, .none (by simp [grantLoop]) (fun _ h => absurd h (Nat.lt_irrefl 0))⟩
  | succ k ih =>
    cases hq : (s.zone z).queue with
    | nil =>
      have hstop : grantLoop (k + 1) z s = (s, false) := by rw [grantLoop, hq]
      rw [hstop]
      exact ⟨0, .none (by simp [hq]) (fun _ _ h => by rw [hq] at h; cases h)⟩
    | cons i rest =>
      rw [grantLoop_head k hq]
      rw [hq] at hnodup
      obtain ⟨hnew, hrest⟩ := List.nodup_cons.1 hnodup
      by_cases hmay : s.grantable z i = true
      · rw [if_pos hmay]
        obtain ⟨n, hn⟩ := ih (s := s.grant z i) (by rw [State.queue_grant_of_head hq]; exact hrest)
        exact ⟨n + 1, hn.head hq hnew (s.grantable_iff.1 hmay)⟩
      · rw [if_neg hmay]
        refine ⟨0, .none (by simp [hq]) fun j _ hj hj' => hmay ?_⟩
        rw [hq] at hj
        rw [Option.some.inj hj]
        exact s.grantable_iff.2 hj'

end Sys2Proof.Machine
end

section
/-! PROOFS. A settlement of one zone, step by step: whom it sheds and where they go (R67 to R69), when it ends OVER (R70), and whom
it grants (R71, R72). -/

-- One proof after another: begun all at once, the proofs of the whole text outgrow the check's memory.
set_option Elab.async false

namespace Sys2Proof.Machine

/-! ### The steps of a settlement -/

/-- The shed step with its event (R67). -/
def State.shedStep (s : State) (z : Nat) : State :=
  if s.overLimit z && !(s.zone z).joinList.isEmpty then
    (shedLoop (s.zone z).joinList.length z s).raiseBoth .zoneShed .zoneShed
  else shedLoop (s.zone z).joinList.length z s

/-- The over step or the grant and closing steps, whichever the zone's flux calls for; `was` is its state before. -/
def State.closeStep (s : State) (z : Nat) (was : ZState) : State :=
  if s.overLimit z then s.overStep z was else s.grantStep z

theorem State.settle_eq (s : State) (z : Nat) : s.settle z = (s.shedStep z).closeStep z (s.zone z).state := rfl

theorem shedLoop_of_not (n : Nat) {z : Nat} {s : State} (h : (s.overLimit z && !(s.zone z).joinList.isEmpty) = false) :
    shedLoop n z s = s := by
  cases n with
  | zero => rfl
  | succ n => rw [shedLoop, if_neg (by simp [h])]

theorem State.shedStep_of_not {s : State} {z : Nat} (h : (s.overLimit z && !(s.zone z).joinList.isEmpty) = false) :
    s.shedStep z = s := by
  rw [State.shedStep, if_neg (by simp [h]), shedLoop_of_not _ h]

/-- What every shed turn keeps, the shed step keeps. -/
theorem shedLoop_keeps {P : State → Prop} {z : Nat} (hshed : ∀ u, P u → P (u.shedOne z)) (n : Nat) {s : State} (h : P s) :
    P (shedLoop n z s) := by
  induction n generalizing s with
  | zero => exact h
  | succ n ih =>
    rw [shedLoop]
    split
    · exact ih (hshed s h)
    · exact h

theorem State.shedStep_keeps {P : State → Prop} {s : State} {z : Nat} (hshed : ∀ u, P u → P (u.shedOne z))
    (hraise : ∀ u d p, P u → P (u.raiseBoth d p)) (h : P s) : P (s.shedStep z) := by
  unfold State.shedStep
  split
  · exact hraise _ _ _ (shedLoop_keeps hshed _ h)
  · exact shedLoop_keeps hshed _ h

theorem State.shedStep_frame (s : State) (z : Nat) : SettleFrame s (s.shedStep z) :=
  State.shedStep_keeps (fun u hu => hu.trans (u.shedOne_frame z)) (fun u _ _ hu => hu.trans (.raiseBoth u _ _)) (.refl s)

theorem SettleFrame.overLimit_eq {s t : State} (h : SettleFrame s t) {z : Nat}
    (hlist : (t.zone z).joinList = (s.zone z).joinList) : t.overLimit z = s.overLimit z := by
  rw [State.overLimit, State.overLimit, h.limitW_eq, h.committed_eq, hlist]
  rfl

theorem SettleFrame.hold_eq {s t : State} (h : SettleFrame s t) (z : Nat) : (t.zone z).hold = (s.zone z).hold :=
  (congrArg (fun y : Zone => y.hold) (h.2.1 z) :)

theorem SettleFrame.rjMax_eq {s t : State} (h : SettleFrame s t) (z : Nat) : (t.zone z).rjMax = (s.zone z).rjMax :=
  (congrArg (fun y : Zone => y.rjMax) (h.2.1 z) :)

/-! ### The state a zone ends in -/

section
variable (s : State) (z : Nat)

theorem State.zone_overStep (was : ZState) (y : Nat) : (s.overStep z was).zone y =
    if y = z then { s.zone z with state := .over } else s.zone y := by
  unfold State.overStep
  dsimp only
  split <;> exact s.zone_modZone z y fun zn => { zn with state := .over }

/-- The grant loop stops at a head it may not grant, and so with a queue that is not empty (R71). -/
theorem grantLoop_stopped (k : Nat) (s : State) : (grantLoop k z s).2 = true → ((grantLoop k z s).1.zone z).queue ≠ [] := by
  induction k generalizing s with
  | zero => exact fun h => (by cases h)
  | succ k ih =>
    cases hq : (s.zone z).queue with
    | nil =>
      rw [grantLoop, hq]
      exact fun h => (by cases h)
    | cons i rest =>
      rw [grantLoop_head k hq]
      split
      · exact ih _
      · exact fun _ => by rw [hq]; exact List.cons_ne_nil i rest

/-- Each grant finds room, so that the grant loop ends within the limit (R71). -/
theorem overLimit_grantLoop (k : Nat) {s : State} (h : s.overLimit z = false) :
    (grantLoop k z s).1.overLimit z = false := by
  induction k generalizing s with
  | zero => exact h
  | succ k ih =>
    cases hq : (s.zone z).queue with
    | nil =>
      rw [grantLoop, hq]
      exact h
    | cons i rest =>
      rw [grantLoop_head k hq]
      split
      next hmay =>
        refine ih ?_
        rw [State.grantable, Bool.and_eq_true, decide_eq_true_eq] at hmay
        rw [State.overLimit, decide_eq_false_iff_not, (s.grant_frame z i).limitW_eq, State.committed_grant, Nat.not_lt]
        exact hmay.2
      next => exact h

/-- The state and the queue that the grant and closing steps leave a zone with (R71, R72). -/
theorem State.grantStep_closes (h : s.overLimit z = false) :
    (s.grantStep z).overLimit z = false ∧ ((s.grantStep z).zone z).state ≠ .over
      ∧ ((s.zone z).hold = true → ((s.grantStep z).zone z).state = .held)
      ∧ (((s.grantStep z).zone z).state = .full → ((s.grantStep z).zone z).queue ≠ []) := by
  have hstate (u : State) (x : ZState) (hu : u.overLimit z = false) :
      (u.modZone z fun zn => { zn with state := x }).overLimit z = false :=
    (SettleFrame.overLimit_eq (.modZone u z (f := fun zn => { zn with state := x }) fun _ => rfl)
      (by rw [State.zone_modZone_same])).trans hu
  unfold State.grantStep
  by_cases hhold : (s.zone z).hold = true
  · rw [if_pos hhold, State.zone_modZone_same]
    exact ⟨hstate s _ h, fun h => (by cases h), fun _ => rfl, fun h => (by cases h)⟩
  rw [if_neg hhold]
  split
  · rw [State.zone_modZone_same]
    exact ⟨hstate s _ h, fun h => (by cases h), fun h => absurd h hhold, fun h => (by cases h)⟩
  · have hloop := overLimit_grantLoop z (s.zone z).rjMax h
    have hstop := grantLoop_stopped z (s.zone z).rjMax s
    dsimp only
    rw [State.zone_modZone_same]
    refine ⟨hstate _ _ hloop, ?_, fun h => absurd h hhold, fun hfull => hstop ?_⟩
    · dsimp only
      split <;> exact fun h => (by cases h)
    · by_contra hno
      rw [if_neg hno] at hfull
      cases hfull

/-- A settlement ends OVER where the shed step could not bring its zone within the limit, and only there (R70, R72). -/
theorem State.settle_closes : (((s.settle z).zone z).state = .over ↔ (s.settle z).overLimit z = true)
    ∧ ((s.settle z).overLimit z = false → (s.zone z).hold = true → ((s.settle z).zone z).state = .held)
    ∧ (((s.settle z).zone z).state = .full → ((s.settle z).zone z).queue ≠ []) := by
  rw [State.settle_eq]
  have hhold := (s.shedStep_frame z).hold_eq z
  rw [← hhold]
  generalize (s.zone z).state = was
  generalize s.shedStep z = u
  unfold State.closeStep
  by_cases hover : u.overLimit z = true
  · rw [if_pos hover]
    have hzone := u.zone_overStep z was z
    rw [if_pos rfl] at hzone
    have hstill : (u.overStep z was).overLimit z = true :=
      ((u.overStep_frame z was).overLimit_eq (by rw [hzone])).trans hover
    rw [hzone, hstill]
    exact ⟨⟨fun _ => rfl, fun _ => rfl⟩, fun h => (by cases h), fun h => (by cases h)⟩
  · rw [if_neg hover]
    obtain ⟨hwithin, hstate, hheld, hfull⟩ := u.grantStep_closes z (Bool.eq_false_iff.2 hover)
    refine ⟨⟨fun h => absurd h hstate, fun h => ?_⟩, fun _ => hheld, hfull⟩
    rw [hwithin] at h
    cases h

end

/-! ### Whom a settlement makes ON_TARGET -/

section
variable (s : State) (z : Nat)

/-- A shed turn makes no heliostat ON_TARGET (R68, R69). -/
theorem State.onTarget_of_shedOne {i : Nat} (h : ((s.shedOne z).hel i).state = .onTarget) : (s.hel i).state = .onTarget := by
  cases hl : (s.zone z).joinList.getLast? with
  | none => rwa [State.shedOne, hl] at h
  | some j =>
    rw [State.shedOne_of_newest hl] at h
    split at h
    · rw [State.hel_reroute] at h
      split at h
      next hi => rw [hi]; exact h
      next => exact h
    · rw [State.hel_enqueue] at h
      split at h
      · cases h
      next hi => rwa [State.hel_departFrom, if_neg hi] at h

theorem State.onTarget_of_shedStep {i : Nat} (h : ((s.shedStep z).hel i).state = .onTarget) :
    (s.hel i).state = .onTarget :=
  State.shedStep_keeps (P := fun u => (u.hel i).state = .onTarget → (s.hel i).state = .onTarget)
    (fun u hu h => hu (u.onTarget_of_shedOne z h)) (fun _ _ _ hu => hu) id h

theorem State.hel_overStep (was : ZState) (i : Nat) : (s.overStep z was).hel i = s.hel i := by
  unfold State.overStep
  dsimp only
  split <;> rfl

/-- The grant loop makes ON_TARGET no more than it may (R71). -/
theorem onTarget_of_grantLoop (k : Nat) (s : State) : ∃ g : List Nat, g.length ≤ k
    ∧ ∀ i, ((grantLoop k z s).1.hel i).state = .onTarget → (s.hel i).state = .onTarget ∨ i ∈ g := by
  induction k generalizing s with
  | zero => exact ⟨[], Nat.le_refl _, fun _ h => .inl h⟩
  | succ k ih =>
    cases hq : (s.zone z).queue with
    | nil =>
      rw [grantLoop, hq]
      exact ⟨[], Nat.zero_le _, fun _ h => .inl h⟩
    | cons j rest =>
      rw [grantLoop_head k hq]
      split
      · obtain ⟨g, hg, hin⟩ := ih (s.grant z j)
        refine ⟨j :: g, Nat.succ_le_succ hg, fun i hi => ?_⟩
        rcases hin i hi with hu | hu
        · rw [State.hel_grant] at hu
          split at hu
          next hij => exact .inr (List.mem_cons.2 (.inl hij))
          next => exact .inl hu
        · exact .inr (List.mem_cons_of_mem j hu)
      · exact ⟨[], Nat.zero_le _, fun _ h => .inl h⟩

/-- The grant step makes ON_TARGET at most RJ_MAX heliostats, and none while the zone is held or stow or defocus is in
effect (R71). -/
theorem State.onTarget_of_grantStep : ∃ g : List Nat, g.length ≤ (s.zone z).rjMax
    ∧ (s.stowInEffect = true ∨ s.pau.defocus = true ∨ (s.zone z).hold = true → g = [])
    ∧ ∀ i, ((s.grantStep z).hel i).state = .onTarget → (s.hel i).state = .onTarget ∨ i ∈ g := by
  unfold State.grantStep
  split
  · exact ⟨[], Nat.zero_le _, fun _ => rfl, fun _ h => .inl h⟩
  next hhold =>
    split
    · exact ⟨[], Nat.zero_le _, fun _ => rfl, fun _ h => .inl h⟩
    next hprotect =>
      obtain ⟨g, hg, hin⟩ := onTarget_of_grantLoop z (s.zone z).rjMax s
      refine ⟨g, hg, fun h => ?_, fun i hi => hin i hi⟩
      rw [Bool.or_eq_true, not_or] at hprotect
      tauto

/-- A settlement makes ON_TARGET at most RJ_MAX heliostats, and none while its zone is held or stow or defocus is in
effect (R71). -/
theorem State.onTarget_of_settle : ∃ g : List Nat, g.length ≤ (s.zone z).rjMax
    ∧ (s.stowInEffect = true ∨ s.pau.defocus = true ∨ (s.zone z).hold = true → g = [])
    ∧ ∀ i, ((s.settle z).hel i).state = .onTarget → (s.hel i).state = .onTarget ∨ i ∈ g := by
  have hframe := s.shedStep_frame z
  have hramp := hframe.rjMax_eq z
  have hhold := hframe.hold_eq z
  have hpau : (s.shedStep z).pau = s.pau :=
    State.shedStep_keeps (P := fun u => u.pau = s.pau) (fun u => (settleKeeps_pau s.pau).shed u z)
      (settleKeeps_pau s.pau).raise rfl
  have hshed (i : Nat) := s.onTarget_of_shedStep z (i := i)
  rw [State.settle_eq, State.closeStep]
  split
  · exact ⟨[], Nat.zero_le _, fun _ => rfl, fun i hi => .inl (hshed i (by rwa [State.hel_overStep] at hi))⟩
  · obtain ⟨g, hg, hnone, hin⟩ := (s.shedStep z).onTarget_of_grantStep z
    refine ⟨g, hramp ▸ hg, fun h => hnone ?_, fun i hi => (hin i hi).imp (hshed i) id⟩
    rwa [State.stowInEffect, hpau, hhold]

/-! ### The queue of a zone that settles -/

theorem State.queue_shedOne (y : Nat) : (s.zone y).queue.length ≤ (((s.shedOne z).zone y).queue).length := by
  cases hl : (s.zone z).joinList.getLast? with
  | none => rw [State.shedOne, hl]
  | some j =>
    rw [State.shedOne_of_newest hl]
    split
    next q hq =>
      obtain ⟨-, -, -, -, -, hother, -⟩ := (s.reroutePoint_eq_some z j q).1 hq
      rw [State.zone_reroute _ _ _ _ _ hother]
    next =>
      have hdepart : ((s.departFrom z j .queued).zone y).queue = (s.zone y).queue := by
        rw [State.zone_departFrom]
        split
        next hy => rw [hy]
        next => rfl
      rw [State.zone_enqueue]
      split
      · rw [hdepart, List.length_append]
        exact Nat.le_add_right _ _
      · rw [hdepart]

/-- A grant takes one heliostat out of a queue, and a shed turn none. -/
theorem queue_grantLoop (k : Nat) (s : State) :
    (s.zone z).queue.length ≤ ((grantLoop k z s).1.zone z).queue.length + k := by
  induction k generalizing s with
  | zero => exact Nat.le_refl _
  | succ k ih =>
    cases hq : (s.zone z).queue with
    | nil => exact Nat.zero_le _
    | cons j rest =>
      rw [grantLoop_head k hq]
      split
      · have hrest := ih (s.grant z j)
        rw [State.queue_grant_of_head hq] at hrest
        rw [List.length_cons]
        omega
      · rw [hq]
        exact Nat.le_add_right _ _

theorem State.queue_settle : (s.zone z).queue.length ≤ ((s.settle z).zone z).queue.length + (s.zone z).rjMax := by
  have hramp := (s.shedStep_frame z).rjMax_eq z
  have hshed : (s.zone z).queue.length ≤ ((s.shedStep z).zone z).queue.length :=
    State.shedStep_keeps (P := fun u => (s.zone z).queue.length ≤ (u.zone z).queue.length)
      (fun u hu => hu.trans (u.queue_shedOne z z)) (fun _ _ _ hu => hu) (Nat.le_refl _)
  have hstate (u : State) (x : ZState) : ((u.modZone z fun zn => { zn with state := x }).zone z).queue = (u.zone z).queue := by
    rw [State.zone_modZone_same]
  rw [State.settle_eq, State.closeStep, ← hramp]
  refine hshed.trans ?_
  generalize s.shedStep z = u
  split
  · rw [State.zone_overStep, if_pos rfl]
    exact Nat.le_add_right _ _
  · unfold State.grantStep
    split
    · rw [hstate]
      exact Nat.le_add_right _ _
    · split
      · rw [hstate]
        exact Nat.le_add_right _ _
      · rw [hstate]
        exact queue_grantLoop z _ u

end

end Sys2Proof.Machine
end

section
/-! PROOFS. A settlement of one zone, the whole: each shed turn told, the over step, and the statement about settlements. -/

-- One proof after another: begun all at once, the proofs of the whole text outgrow the check's memory.
set_option Elab.async false

namespace Sys2Proof.Machine

/-! ### Events stand aside -/

section
variable (s : State) (d d' : DEvent) (e e' : PEvent)

theorem State.raiseBoth_comm : (s.raiseBoth d e).raiseBoth d' e' = (s.raiseBoth d' e').raiseBoth d e := by
  have hd : s.devents ||| (1#18 <<< d.pos) ||| (1#18 <<< d'.pos) = s.devents ||| (1#18 <<< d'.pos) ||| (1#18 <<< d.pos) := by
    rw [BitVec.or_assoc, BitVec.or_comm (1#18 <<< d.pos), ← BitVec.or_assoc]
  have he : s.pevents ||| (1#8 <<< e.pos) ||| (1#8 <<< e'.pos) = s.pevents ||| (1#8 <<< e'.pos) ||| (1#8 <<< e.pos) := by
    rw [BitVec.or_assoc, BitVec.or_comm (1#8 <<< e.pos), ← BitVec.or_assoc]
  simp only [State.raiseBoth, State.raiseD, State.raiseP, hd, he]

theorem State.raiseBoth_self : (s.raiseBoth d e).raiseBoth d e = s.raiseBoth d e := by
  simp only [State.raiseBoth, State.raiseD, State.raiseP, BitVec.or_assoc, BitVec.or_self]

theorem State.clearDeparture_raiseBoth (i : Nat) :
    (s.raiseBoth d e).clearDeparture i = (s.clearDeparture i).raiseBoth d e := by
  have hhel : (s.raiseBoth d e).hel i = s.hel i := rfl
  unfold State.clearDeparture
  simp only [hhel]
  split
  · split <;> rfl
  · rfl

theorem State.grant_raiseBoth (z i : Nat) : (s.raiseBoth d e).grant z i = (s.grant z i).raiseBoth d e :=
  State.clearDeparture_raiseBoth
    ((s.modZone z fun zn => { zn with queue := zn.queue.tail, joinList := zn.joinList ++ [i] }).modHel i
      fun h => { h with state := .onTarget, onAlternate := false, dev := 0 }) d e i

theorem grantLoop_raiseBoth (k z : Nat) (s : State) : grantLoop k z (s.raiseBoth d e)
    = ((grantLoop k z s).1.raiseBoth d e, (grantLoop k z s).2) := by
  induction k generalizing s with
  | zero => rfl
  | succ k ih =>
    cases hq : (s.zone z).queue with
    | nil =>
      have hq' : ((s.raiseBoth d e).zone z).queue = [] := hq
      rw [grantLoop, hq', grantLoop, hq]
    | cons i rest =>
      have hmay : (s.raiseBoth d e).grantable z i = s.grantable z i := rfl
      rw [grantLoop_head k (show ((s.raiseBoth d e).zone z).queue = i :: rest from hq), grantLoop_head k hq, hmay,
        State.grant_raiseBoth, ih]
      split <;> rfl

theorem State.grantStep_raiseBoth (z : Nat) : (s.raiseBoth d e).grantStep z = (s.grantStep z).raiseBoth d e := by
  have hzone : (s.raiseBoth d e).zone z = s.zone z := rfl
  have hpau : (s.raiseBoth d e).pau = s.pau := rfl
  have hstow : (s.raiseBoth d e).stowInEffect = s.stowInEffect := rfl
  unfold State.grantStep
  rw [hzone, hpau, hstow, grantLoop_raiseBoth]
  split
  · rfl
  · split <;> rfl

theorem State.overStep_raiseBoth (z : Nat) (was : ZState) :
    (s.raiseBoth d e).overStep z was = (s.overStep z was).raiseBoth d e := by
  unfold State.overStep
  dsimp only
  split
  · rfl
  · exact State.raiseBoth_comm (s.modZone z fun zn => { zn with state := .over }) d _ e _

/-- What events are pending is nothing to how a settlement closes. -/
theorem State.closeStep_raiseBoth (z : Nat) (was : ZState) :
    (s.raiseBoth d e).closeStep z was = (s.closeStep z was).raiseBoth d e := by
  have hover : (s.raiseBoth d e).overLimit z = s.overLimit z := rfl
  unfold State.closeStep
  rw [hover, State.overStep_raiseBoth, State.grantStep_raiseBoth]
  split <;> rfl

end

/-! ### One shed turn -/

section
variable {s : State} {z i : Nat}

theorem State.state_shedOne (s : State) (z y : Nat) : ((s.shedOne z).zone y).state = (s.zone y).state := by
  cases hl : (s.zone z).joinList.getLast? with
  | none => rw [State.shedOne, hl]
  | some j =>
    rw [State.shedOne_of_newest hl]
    split
    next q hq =>
      obtain ⟨-, -, -, -, -, hother, -⟩ := (s.reroutePoint_eq_some z j q).1 hq
      rw [State.zone_reroute _ _ _ _ _ hother]
    next =>
      have hdepart : ((s.departFrom z j .queued).zone y).state = (s.zone y).state := by
        rw [State.zone_departFrom]
        split
        next hy => rw [hy]
        next => rfl
      rw [State.zone_enqueue]
      split <;> exact hdepart

/-- Above the limit with a member aimed, a settlement is a shed turn and the settlement of what that leaves (R67). -/
theorem State.settle_of_over (hover : s.overLimit z = true) (hlist : (s.zone z).joinList ≠ []) :
    s.settle z = ((s.shedOne z).settle z).raiseBoth .zoneShed .zoneShed := by
  have hsheds : (s.overLimit z && !(s.zone z).joinList.isEmpty) = true := by simp [hover, hlist]
  have hlength : (s.zone z).joinList.length = ((s.shedOne z).zone z).joinList.length + 1 := by
    have hpos := List.length_pos_iff.2 hlist
    rw [State.length_joinList_shedOne]
    omega
  have hloop : shedLoop (s.zone z).joinList.length z s
      = shedLoop ((s.shedOne z).zone z).joinList.length z (s.shedOne z) := by
    rw [hlength, shedLoop, if_pos hsheds]
  rw [State.settle_eq, State.settle_eq, State.state_shedOne, State.shedStep, if_pos hsheds, hloop, State.shedStep]
  split
  · rw [State.closeStep_raiseBoth, State.raiseBoth_self]
  · rw [State.closeStep_raiseBoth]

theorem UrgentEntered.of_segs {s t : State} {i : Nat} (h : ∀ k, t.seg k = ((s.urgentAdd (s.hel i).segment i).seg k)) :
    UrgentEntered s t i := by
  intro k
  rw [h, State.urgentAdd, State.seg_modSeg]
  by_cases hk : k = (s.hel i).segment
  · subst hk
    by_cases hi : i ∈ (s.seg (s.hel i).segment).urgent <;> simp [hi]
  · simp [hk]

theorem State.seg_reroute (q k : Nat) : (s.reroute z i q).seg k = (s.urgentAdd (s.hel i).segment i).seg k := by
  unfold State.reroute
  dsimp only
  split <;>
  · simp only [State.urgentAdd, State.seg_modSeg, State.modHel_seg, State.modPoint_seg, State.modZone_seg]
    rfl

/-- What writes the four tables alone leaves everything else. -/
theorem State.others_of_offTable {s t : State} (h : t.offTable = s.offTable) :
    { t with hels := s.hels, zones := s.zones, points := s.points, segs := s.segs } = s :=
  calc { t with hels := s.hels, zones := s.zones, points := s.points, segs := s.segs }
      = { t.offTable with hels := s.hels, zones := s.zones, points := s.points, segs := s.segs } := rfl
    _ = { s.offTable with hels := s.hels, zones := s.zones, points := s.points, segs := s.segs } := by rw [h]
    _ = s := rfl

/-- The last member of a list that holds each once is taken out. -/
theorem erase_eq_dropLast {l : List Nat} {a : Nat} (hlast : l.getLast? = some a) (hnodup : l.Nodup) :
    l.erase a = l.dropLast := by
  have hl : l.dropLast ++ [a] = l := List.dropLast_append_getLast? a hlast
  have hnew : a ∉ l.dropLast := by
    rw [← hl] at hnodup
    exact fun hin => (List.nodup_append.1 hnodup).2.2 a hin a (List.mem_singleton_self a) rfl
  conv_lhs => rw [← hl]
  rw [List.erase_append_right _ hnew, List.erase_cons_head, List.append_nil]

section
variable {p : Nat} (hlast : (s.zone z).joinList.getLast? = some i) (hnodup : (s.zone z).joinList.Nodup)
  (hp : (s.hel i).assignment = some p) (hz : s.joinZone (s.hel i) = z)
include hlast hnodup hp hz

/-- The newest member, where every condition of R68 holds, is re-routed. -/
theorem State.memberRerouted {q : Nat} (hmay : s.mayReroute (s.hel i) p q) : MemberRerouted s (s.shedOne z) z i p q := by
  obtain ⟨hdefocus, hprimary, ⟨halternate, hq, hvalid, hother⟩, hhold, hroom⟩ := hmay
  have hassigned : s.assignedZone (s.hel i) = (s.point p).zone := by rw [State.assignedZone, hp]
  have hown : (s.point p).zone = z := by rw [← hassigned, ← s.joinZone_of_primary hprimary, hz]
  have hpoint : s.reroutePoint z i = some q := by
    refine (s.reroutePoint_eq_some z i q).2 ⟨?_, hdefocus, hprimary, ?_, ?_, ?_, hhold, hroom⟩
    · rw [State.alternateOf, hp]
      exact halternate
    · simp [State.receiverOk, hq, hvalid]
    · rwa [hassigned]
    · rwa [← hown]
  have hleaves : (s.point q).zone ≠ z := by rwa [← hown]
  have hshed : s.shedOne z = s.reroute z i q := by rw [State.shedOne_of_newest hlast, hpoint]
  rw [hshed]
  refine ⟨?_, fun j hj => ?_, fun y => ?_, fun y => ?_, .of_segs fun k => s.seg_reroute q k, State.others_of_offTable (s.reroute_offTable z i q)⟩
  · rw [State.hel_reroute, if_pos rfl]
  · rw [State.hel_reroute, if_neg hj]
  · rw [State.zone_reroute _ _ _ _ _ hleaves]
    by_cases hy : y = z
    · subst hy
      rw [if_pos rfl, if_pos rfl, erase_eq_dropLast hlast hnodup]
    · rw [if_neg hy, if_neg hy]
  · rw [State.point_reroute, hp, one_some_beq_some, one_beq, one_beq]

/-- The newest member, where no alternate meets the conditions of R68, returns to its queue. -/
theorem State.memberReturned (hno : ∀ q, ¬ s.mayReroute (s.hel i) p q) : MemberReturned s (s.shedOne z) z i p := by
  have hassigned : s.assignedZone (s.hel i) = (s.point p).zone := by rw [State.assignedZone, hp]
  have hpoint : s.reroutePoint z i = none := by
    rw [Option.eq_none_iff_forall_ne_some]
    intro q hq
    obtain ⟨halternate, hdefocus, hprimary, hok, hother, -, hhold, hroom⟩ := (s.reroutePoint_eq_some z i q).1 hq
    rw [State.alternateOf, hp] at halternate
    rw [hassigned] at hother
    simp only [State.receiverOk, Bool.and_eq_true, decide_eq_true_eq] at hok
    exact hno q ⟨hdefocus, hprimary, ⟨halternate, hok.1, hok.2, hother⟩, hhold, hroom⟩
  have hdepart : s.departFrom z i .queued = s.depart i .queued := by rw [State.depart, hz]
  have hshed : s.shedOne z = (s.depart i .queued).enqueue i := by
    rw [State.shedOne_of_newest hlast, hpoint, hdepart]
  have hqueue : (s.depart i .queued).assignedZone ((s.depart i .queued).hel i) = (s.point p).zone := by
    rw [State.hel_depart, if_pos rfl, State.assignedZone, hp]
    exact (congrArg (fun a : Point => a.zone) ((s.depart_frame i .queued).2.2.1 p) :)
  rw [hshed]
  refine ⟨?_, fun j hj => ?_, fun y => ?_, fun y => ?_, ?_, ?_⟩
  · rw [State.hel_enqueue, if_pos rfl, State.hel_depart, if_pos rfl, hz]
  · rw [State.hel_enqueue, if_neg hj, State.hel_depart, if_neg hj]
  · rw [State.zone_enqueue, hqueue, State.zone_depart, hz]
    by_cases hy : y = z
    · subst hy
      rw [if_pos rfl, if_pos rfl, ← erase_eq_dropLast hlast hnodup, beq_self_eq_true]
      split <;> rfl
    · rw [if_neg hy, if_neg hy, beq_false_of_ne hy]
      split <;> rfl
  · have hcleared : ((s.depart i .queued).enqueue i).point y = (s.clearAlternate i).point y := rfl
    have hassignment : (some p == some y) = (y == p) := by
      rw [Bool.eq_iff_iff, beq_iff_eq, beq_iff_eq, Option.some.injEq]
      exact eq_comm
    have halternate : s.alternateOf (s.hel i) = (s.point p).alternate := by rw [State.alternateOf, hp]; rfl
    rw [hcleared, State.point_clearAlternate, halternate, hp, hassignment]
  · exact s.urgentEntered_depart i .queued
  · refine State.others_of_offTable ?_
    have hleft : (s.depart i .queued).offTable = s.offTable := s.departFrom_offTable _ i .queued
    rw [← hleft]
    rfl

end

end

/-! ### Within the limit, and above it with nothing aimed -/

section
variable {s : State} {z : Nat}

theorem State.settle_of_empty (hover : s.overLimit z = true) (hlist : (s.zone z).joinList = []) :
    s.settle z = s.overStep z (s.zone z).state := by
  rw [State.settle_eq, State.shedStep_of_not (by simp [hlist]), State.closeStep, if_pos hover]

theorem State.settle_of_within (hwithin : s.overLimit z = false) : s.settle z = s.grantStep z := by
  rw [State.settle_eq, State.shedStep_of_not (by simp [hwithin]), State.closeStep, if_neg (by simp [hwithin])]

theorem State.grantStep_of_shut (hshut : s.stowInEffect = true ∨ s.pau.defocus = true ∨ (s.zone z).hold = true) :
    s.grantStep z = s.modZone z fun zn => { zn with state := if (s.zone z).hold = true then .held else .normal } := by
  unfold State.grantStep
  by_cases hhold : (s.zone z).hold = true
  · rw [if_pos hhold, if_pos hhold]
  · have hprotect : (s.stowInEffect || s.pau.defocus) = true := by
      rw [Bool.or_eq_true]
      tauto
    rw [if_neg hhold, if_neg hhold, if_pos hprotect]

/-- The grant and closing steps of a zone that may grant (R71, R72). -/
theorem State.grantsMade_grantStep
    (hopen : ¬ (s.stowInEffect = true ∨ s.pau.defocus = true ∨ (s.zone z).hold = true))
    (hnodup : (s.zone z).queue.Nodup) : ∃ n, GrantsMade s (s.grantStep z) z n := by
  have hprotect : ¬ (s.stowInEffect || s.pau.defocus) = true := by
    rw [Bool.or_eq_true]
    tauto
  obtain ⟨n, hmax, hlength, hmay, hmayNot, hflag, hhel, hzone, hothers⟩ := granted_grantLoop z (s.zone z).rjMax hnodup
  refine ⟨n, hmax, hlength, hmay, hmayNot, fun i => ?_, fun y => ?_, ?_⟩
  all_goals rw [State.grantStep, if_neg (fun h => hopen (.inr (.inr h))), if_neg hprotect]
  · exact hhel i
  · dsimp only
    have hstate : (if (grantLoop (s.zone z).rjMax z s).2 = true then ZState.full else .normal)
        = if n < (s.zone z).rjMax ∧ n < (s.zone z).queue.length then .full else .normal := by
      simp only [hflag]
    rw [State.zone_modZone, hstate, hzone, hzone]
    by_cases hy : y = z
    · subst hy
      simp only [if_true]
    · simp only [if_neg hy]
  · exact hothers

end

/-- Settles O25: the shed step, the over step and the grant step, each by its law. -/
theorem settlementHoldsLimit : Obligations.SettlementHoldsLimit := by
  unfold Obligations.SettlementHoldsLimit
  refine ⟨?_, fun s z l hnodup hl => ?_, fun s z => s.queue_settle z, fun s z hshut i hi ho => ?_,
    fun s z hover hlist => State.settle_of_over hover hlist, fun s z i p hlast hnodup hp hz _ =>
      ⟨fun q => State.memberRerouted hlast hnodup hp hz, State.memberReturned hlast hnodup hp hz⟩,
    fun s z hover hlist => ?_, fun s z hwithin => ?_⟩
  · rintro s t z rfl
    obtain ⟨hover, hheld, hfull⟩ := s.settle_closes z
    exact ⟨s.zoneSafe_settle z, s.settle_frame z, hover, hheld, hfull⟩
  · obtain ⟨g, hg, -, hin⟩ := s.onTarget_of_settle z
    have hsub : l ⊆ g := fun i hi => ((hin i (hl i hi).2).resolve_left (hl i hi).1)
    exact (hnodup.subperm hsub).length_le.trans hg
  · obtain ⟨g, -, hnone, hin⟩ := s.onTarget_of_settle z
    rcases hin i ho with h | h
    · exact hi h
    · rw [hnone hshut] at h
      cases h
  · rw [State.settle_of_empty hover hlist]
    refine ⟨?_, fun y hy => ?_, fun hstate => ?_, fun hstate => ?_, ?_⟩
    · rw [State.zone_overStep, if_pos rfl]
    · rw [State.zone_overStep, if_neg hy]
    · rw [State.overStep, if_neg hstate]
      exact ⟨State.dPending_raiseD _ .zoneOver, State.pPending_raiseP _ .zoneOver⟩
    · rw [State.overStep, if_pos hstate]
      exact ⟨rfl, rfl⟩
    · unfold State.overStep
      dsimp only
      split <;> rfl
  · rw [State.settle_of_within hwithin]
    split
    next hshut =>
      rw [State.grantStep_of_shut hshut]
      exact ⟨s.zone_modZone_same z _, fun y hy => (s.zone_modZone z y _).trans (if_neg hy), rfl⟩
    next hopen => exact State.grantsMade_grantStep hopen

end Sys2Proof.Machine
end

section
/-! PROOFS. The ports: the edges that begin and end a transaction (R173 to R176), a byte that names no command (R174, R178), the
settings of a port (R185, R194) and the objects of reads (R183 to R189). -/

-- One proof after another: begun all at once, the proofs of the whole text outgrow the check's memory.
set_option Elab.async false

namespace Sys2Proof.Machine

/-! ### The select line -/

section
variable (s : State) (p : Port)

theorem State.selectFall_of_high (h : s.selectLow p = false) :
    s.selectFall p = (s.setSelect p true).setTxn p { Txn.reset with phase := .command } := by
  rw [State.selectFall, if_neg (by simp [h])]

theorem State.selectRise_of_low (h : s.selectLow p = true) :
    s.selectRise p = (s.setSelect p false).setTxn p Txn.reset := by
  rw [State.selectRise, if_pos h]

theorem State.selectLow_setTxn (q : Port) (x : Txn) : (s.setTxn p x).selectLow q = s.selectLow q := by
  cases p <;> cases q <;> rfl

theorem State.selectLow_setSelect (low : Bool) : (s.setSelect p low).selectLow p = low := by
  cases p <;> rfl

/-- A select line set and a record written are one port's alone. -/
theorem State.setSelect_setTxn (low : Bool) (x : Txn) :
    ((s.setSelect p low).setTxn p x).txn p = x ∧ ((s.setSelect p low).setTxn p x).selectLow p = low
      ∧ ((s.setSelect p low).setTxn p x).txn (otherPort p) = s.txn (otherPort p)
      ∧ ((s.setSelect p low).setTxn p x).selectLow (otherPort p) = s.selectLow (otherPort p)
      ∧ { (s.setSelect p low).setTxn p x with dpt := s.dpt, ppt := s.ppt, pins := s.pins } = s := by
  cases p <;> exact ⟨rfl, rfl, rfl, rfl, rfl⟩

/-- Levels and records set back to what they were. -/
theorem State.setSelect_setTxn_restore {low : Bool} {x : Txn} (hline : s.selectLow p = low) (hrecord : s.txn p = x)
    (low' : Bool) (x' : Txn) : (((s.setSelect p low').setTxn p x').setSelect p low).setTxn p x = s := by
  subst hline hrecord
  cases p <;> rfl

end

/-- Settles O5: a fall and a rise of a select line write one port's record and level. -/
theorem transactionEdges : Obligations.TransactionEdges := by
  unfold Obligations.TransactionEdges
  refine ⟨fun s p hhigh => ?_, fun s p c hc hlow => ?_, fun s t p hhigh hrecord hbegin => ?_⟩
  · obtain ⟨htxn, hlow, hother, hline, hrest⟩ := s.setSelect_setTxn p true { Txn.reset with phase := .command }
    refine ⟨_, congrArg Host.Outcome.next (s.selectFall_of_high p hhigh), htxn, hlow, ?_, hother, hline, hrest⟩
    rw [State.dso, hlow, htxn]
    rfl
  · obtain ⟨htxn, hhigh, hother, hline, hrest⟩ := s.setSelect_setTxn p false Txn.reset
    have hexec : exec c s = .next (s.selectRise p) := by rcases hc with rfl | rfl <;> rfl
    refine ⟨_, hexec.trans (congrArg Host.Outcome.next (s.selectRise_of_low p hlow)), htxn, hhigh, ?_, hother, hline, hrest⟩
    rw [State.dso, hhigh]
    rfl
  · have ht : t = (s.setSelect p true).setTxn p { Txn.reset with phase := .command } :=
      (Host.Outcome.next.inj hbegin).symm.trans (s.selectFall_of_high p hhigh)
    obtain ⟨-, hlow, -⟩ := s.setSelect_setTxn p true { Txn.reset with phase := .command }
    rw [← ht] at hlow
    have hend : exec (.transactionDiscard p) t = .next (t.selectRise p) := rfl
    rw [hend, t.selectRise_of_low p hlow, ht, s.setSelect_setTxn_restore p hhigh hrecord]

/-! ### A byte that names no command -/

/-- Settles O6: such a byte's delivery leaves the state, and any other byte's row has no effect. -/
theorem unknownCommand : Obligations.UnknownCommand := by
  unfold Obligations.UnknownCommand
  refine fun s p b hr => ⟨fun hno => ?_, fun hnames => if_neg hnames⟩
  exact refusedWith (w := ⟨p, b, []⟩) rfl hr (if_pos hno) fun _ _ => rfl

/-! ### The settings of a port -/

theorem formOf_eq (b : Byte) : formOf b = if b = 0 then some .full else if b = 1 then some .compact else none := by
  have h0 : b.toNat = 0 ↔ b = 0 := BitVec.toNat_inj (y := 0)
  have h1 : b.toNat = 1 ↔ b = 1 := BitVec.toNat_inj (y := 1)
  unfold formOf
  split
  next h => rw [if_pos (h0.1 h)]
  next h => rw [h1.1 h]; rfl
  next hne0 hne1 => rw [if_neg fun h => hne0 (h0.2 h), if_neg fun h => hne1 (h1.2 h)]

/-- SET_FORM of a code that names a form. -/
theorem setForm_acted {s : State} {b : Byte} {f : Form} (hr : s.accepts (.setForm b) = true) (hf : formOf b = some f)
    {P : State → Prop} (h : ∀ n, P { s.setTxn .dispatch n with form := f })
    (hP : ∀ v : State, P v.bare ↔ P v := by exact fun _ => Iff.rfl) :
    ∃ t, exec (.setForm b) s = .next t ∧ Delivered s t .dispatch .done ∧ P t := by
  refine exec_acted (w := ⟨.dispatch, _, _⟩) rfl hr rfl (f := fun u => { u with form := f }) (fun n => ?_)
    (fun u => ⟨rfl, rfl⟩) h hP
  rw [hf]

/-- Settles O8: one field is written, or the code is refused. -/
theorem portSettings : Obligations.PortSettings := by
  unfold Obligations.PortSettings
  refine ⟨fun s b hr => ?_, fun s m => ⟨fun hr => ?_, fun hr => ?_⟩⟩
  · by_cases h0 : b = 0
    · rw [if_pos (.inl h0)]
      exact setForm_acted hr (f := .full) ((formOf_eq b).trans (if_pos h0)) fun n => ⟨(if_pos h0).symm, rfl⟩
    by_cases h1 : b = 1
    · rw [if_pos (.inr h1)]
      exact setForm_acted hr (f := .compact) ((formOf_eq b).trans ((if_neg h0).trans (if_pos h1)))
        fun n => ⟨((if_neg h0).trans (if_pos h1)).symm, rfl⟩
    · have hnone : formOf b = none := (formOf_eq b).trans ((if_neg h0).trans (if_neg h1))
      obtain ⟨t, hexec, hdel, hbare⟩ : RefusedWith s (.setForm b) .dispatch .range :=
        refusedWith (w := ⟨.dispatch, _, _⟩) rfl hr rfl fun u _ => by rw [hnone]
      have hform : t.form = s.form := congrArg (·.form) hbare
      rw [if_neg (fun h => h.elim h0 h1)]
      refine ⟨t, hexec, hdel, hform.trans ((if_neg h0).trans (if_neg h1)).symm, ?_⟩
      rw [hbare, hform]
  · refine exec_acted (w := ⟨.dispatch, _, _⟩) rfl hr rfl (f := fun u => u.writeMask .dispatch m) (fun n => rfl)
      (fun u => ⟨rfl, rfl⟩) fun n => ⟨fun e => ?_, rfl⟩
    have hpos : e.pos < 18 := by cases e <;> decide
    change (m.setWidth 18).getLsbD e.pos = _
    rw [BitVec.getLsbD_setWidth, decide_eq_true hpos, Bool.true_and]
  · refine exec_acted (w := ⟨.protection, _, _⟩) rfl hr rfl (f := fun u => u.writeMask .protection m) (fun n => rfl)
      (fun u => ⟨rfl, rfl⟩) fun n => ⟨fun e => ?_, rfl⟩
    have hpos : e.pos < 8 := by cases e <;> decide
    change (m.setWidth 8).getLsbD e.pos = _
    rw [BitVec.getLsbD_setWidth, decide_eq_true hpos, Bool.true_and]

/-! ### The next object of a read -/

/-- One port's record written, and a free byte drawn: the other port's record and everything else stand. -/
theorem State.setTxn_of_draws (s : State) (p : Port) (x : Txn) (n : Nat) :
    (State.setTxn { s with draws := n } p x).txn p = x
      ∧ (State.setTxn { s with draws := n } p x).txn (otherPort p) = s.txn (otherPort p)
      ∧ { State.setTxn { s with draws := n } p x with dpt := s.dpt, ppt := s.ppt, draws := s.draws } = s := by
  cases p <;> exact ⟨rfl, rfl, rfl⟩

/-- The object a cursor names is no matter of the ports' records. -/
theorem State.objectAt_setTxn (s : State) (p : Port) (x : Txn) (c : Cursor) :
    (s.setTxn p x).objectAt c = s.objectAt c := by
  cases p <;> cases c <;> rfl

/-- Settles O7: the cursor names the next object, or the read ends in fill. -/
theorem readObjectFix : Obligations.ReadObjectFix := by
  unfold Obligations.ReadObjectFix
  intro s p
  have hexec : exec (.readObjectFix p) s = .next (s.fixObject p) := rfl
  refine ⟨fun hfixed hphase => ⟨_, hexec, ?_⟩, fun hno => ?_⟩
  · have hmay : (s.txn p).completion.isSome = true ∧ ((s.txn p).phase = .completion ∨ (s.txn p).phase = .data) :=
      ⟨hfixed, hphase⟩
    rw [State.fixObject]
    dsimp only
    rw [if_pos hmay]
    cases hcursor : (s.txn p).cursor with
    | none =>
      dsimp only
      obtain ⟨htxn, hother, hrest⟩ := s.setTxn_of_draws p
        { s.txn p with phase := .fill, bitCount := 0, cursor := none, object := [], position := 0 }.present s.draws
      refine ⟨hother, hrest, ?_, ?_, ?_, ?_, ?_⟩
      · exact (congrArg _ htxn).trans rfl
      · exact (congrArg _ htxn).trans rfl
      · exact (congrArg _ htxn).trans rfl
      · exact (congrArg _ htxn).trans rfl
      · rw [htxn]
        simp [Txn.present, Txn.outByte]
    | some c =>
      dsimp only
      obtain ⟨htxn, hother, hrest⟩ := s.setTxn_of_draws p { s.txn p with
        phase := .data, bitCount := 0, cursor := c.next, object := State.objectAt { s with draws := s.draws + 1 } c,
        position := 0 }.present (s.draws + 1)
      have hobject := State.objectAt_setTxn { s with draws := s.draws + 1 } p { s.txn p with
        phase := .data, bitCount := 0, cursor := c.next, object := State.objectAt { s with draws := s.draws + 1 } c,
        position := 0 }.present c
      refine ⟨hother, hrest, (congrArg _ htxn).trans rfl, (congrArg _ htxn).trans rfl, (congrArg _ htxn).trans rfl, ?_,
        (congrArg _ htxn).trans rfl, ?_⟩
      · exact (congrArg _ htxn).trans hobject.symm
      · rw [hobject]
        exact (congrArg _ htxn).trans rfl
  · rw [hexec, State.fixObject]
    refine congrArg Host.Outcome.next (if_neg fun ⟨hfixed, hphase⟩ => ?_)
    rcases hno with hnone | ⟨hcompletion, hdata⟩
    · rw [hnone] at hfixed
      cases hfixed
    · exact hphase.elim hcompletion hdata

end Sys2Proof.Machine
end

section
/-! PROOFS. The objects of reads (R183 to R186, R189, R201): the reads of one object, READ_CAPTURE, and the reads of a sequence. -/

-- One proof after another: begun all at once, the proofs of the whole text outgrow the check's memory.
set_option Elab.async false

namespace Sys2Proof.Machine

/-! ### The delivery of a read -/

/-- What the delivery of a read leaves: the object that `first` fixes of the state after the action, and its cursor. -/
theorem exec_read {c : Instr} {w : WireCmd} {act : State → State × Code}
    {first : State → Option (List Byte × Option Cursor)} {s u : State} {code : Code}
    {o : Option (List Byte × Option Cursor)} (hw : wire c = some w) (hr : s.accepts c = true)
    (hc : exec c s = .next (deliverWith c act first s)) (ha : act (s.setTxn w.port (Txn.received w)) = (u, code))
    (ho : (if code = .done then first (u.superviseDelivery w.port) else none) = o)
    (ht : u.txn (otherPort w.port) = s.txn (otherPort w.port)) (hs : u.pau.supLeft = s.pau.supLeft) :
    ∃ t, exec c s = .next t ∧ Delivered s t w.port code ∧ t.bare = u.bare
      ∧ (t.txn w.port).object = (o.map (·.1)).getD [] ∧ (t.txn w.port).cursor = o.bind (·.2)
      ∧ t = (u.superviseDelivery w.port).setTxn w.port (Txn.delivered w code o) := by
  refine ⟨u.afterDelivery w code o, hc.trans ?_, delivered_afterDelivery _ _ _ _ rfl ht hs, State.afterDelivery_bare .., ?_, ?_,
    rfl⟩
  · rw [deliverWith_ready hw _ _ hr, ha, ho]
  · rw [State.afterDelivery_txn, Txn.delivered]
  · rw [State.afterDelivery_txn, Txn.delivered]

/-! ### The lengths of the fixed objects (R186, R189, R145) -/

@[simp] theorem length_be8 (n : Nat) : (be8 n).length = 1 := rfl
@[simp] theorem length_be16 (n : Nat) : (be16 n).length = 2 := rfl
@[simp] theorem length_be32 (n : Nat) : (be32 n).length = 4 := rfl
@[simp] theorem length_bytes24 (w : BitVec 24) : (bytes24 w).length = 3 := rfl
@[simp] theorem length_bytes32 (w : BitVec 32) : (bytes32 w).length = 4 := rfl
@[simp] theorem length_optWord (v : Option Nat) : (optWord v).length = 2 := rfl
@[simp] theorem length_vector16 (v : Vec3) : (vector16 v).length = 6 := rfl

theorem length_flatten_map_range {α : Type} {n len : Nat} {f : Nat → List α} (h : ∀ k, (f k).length = len) :
    (((List.range n).map f).flatten).length = n * len := by
  simp [List.length_flatten, Function.comp_def, h]

section
variable (s : State)

theorem State.length_pauStatus : s.pauStatus.length = 24 := rfl

theorem State.length_channelStatus : s.channelStatus.length = 72 :=
  length_flatten_map_range (len := 9) fun _ => rfl

theorem State.length_dispatchStatus : s.dispatchStatus.length = 168 := by
  have htimers : (((List.range 8).map fun k => optWord (s.timer k)).flatten).length = 16 :=
    length_flatten_map_range (len := 2) fun _ => rfl
  simp [State.dispatchStatus, State.length_pauStatus, State.length_channelStatus, htimers]

theorem State.length_protectionStatus : s.protectionStatus.length = 40 := by
  have hchannels : (((List.range 8).map fun k => be8 (s.channel k).state.code).flatten).length = 8 :=
    length_flatten_map_range (len := 1) fun _ => rfl
  simp [State.protectionStatus, State.length_pauStatus, hchannels]

theorem State.length_statusObject (p : Port) :
    (s.statusObject p).length = (match p with | .dispatch => 168 | .protection => 40) := by
  cases p
  · exact s.length_dispatchStatus
  · exact s.length_protectionStatus

theorem State.length_captureObject (k : Nat) : (s.captureObject k).length = 12 := by
  rw [State.captureObject]
  cases (s.channel k).records <;> rfl

theorem State.statusObject_setTxn (p q : Port) (x : Txn) : (s.setTxn p x).statusObject q = s.statusObject q := by
  cases p <;> cases q <;> rfl

end

/-! ### One object -/

theorem exec_readStatus {s : State} {p : Port} (hr : s.accepts (.readStatus p) = true) :
    ∃ t, exec (.readStatus p) s = .next t ∧ Delivered s t p .done ∧ t.bare = s.bare
      ∧ (t.txn p).object = t.statusObject p ∧ (t.txn p).cursor = none := by
  obtain ⟨t, hexec, hdelivered, hbare, hobject, hcursor, hstate⟩ :=
    exec_read (c := .readStatus p) (w := ⟨p, _, _⟩) rfl hr rfl rfl rfl (State.txn_setTxn_ne _ (otherPort_ne p) _)
      (congrArg Pau.supLeft (State.setTxn_pau ..))
  refine ⟨t, hexec, hdelivered, hbare.trans (State.setTxn_bare ..), hobject.trans ?_, hcursor⟩
  rw [hstate, State.statusObject_setTxn]
  rfl

/-- A read of one object of a zone takes nothing from the state. -/
theorem exec_deliverObject {c : Instr} {w : WireCmd} {ok : Bool} {object : State → List Byte} {s : State} (hw : wire c = some w)
    (hd : w.port = .dispatch) (hr : s.accepts c = true) (hc : exec c s = deliverObject c ok object s) (hok : ok = true)
    (hobject : ∀ x, object (s.setTxn .dispatch x) = object s) :
    ∃ t, exec c s = .next t ∧ Delivered s t .dispatch .done ∧ t.bare = s.bare ∧ (t.txn .dispatch).object = object s := by
  obtain ⟨port, code, operands⟩ := w
  subst hd
  obtain ⟨t, hexec, hdelivered, hbare, hfixed, -, -⟩ :=
    exec_read (w := ⟨.dispatch, code, operands⟩) hw hr hc rfl rfl rfl rfl
  rw [hok] at hdelivered hfixed
  exact ⟨t, hexec, hdelivered, hbare, hfixed.trans (hobject _)⟩

/-- READ_CAPTURE of a channel that exists: the readout is the channel as found, and the channel is read out. -/
theorem exec_readCapture {s : State} {b : Byte} (hr : s.accepts (.readCapture b) = true) (hb : b.toNat ≤ 7) :
    ∃ t, exec (.readCapture b) s = .next t ∧ Delivered s t .dispatch .done
      ∧ t.bare = (s.modChannel b.toNat Channel.taken).bare ∧ (t.txn .dispatch).object = s.captureObject b.toNat := by
  obtain ⟨t, hexec, hdelivered, hbare, hobject, -, -⟩ :=
    exec_read (c := .readCapture b) (w := ⟨.dispatch, _, _⟩) rfl hr rfl (if_neg hb.not_gt) rfl rfl rfl
  exact ⟨t, hexec, hdelivered, hbare, hobject⟩

theorem State.channel_of_bare_eq {t u : State} (h : t.bare = u.bare) (k : Nat) : t.channel k = u.channel k :=
  (congrArg (fun v : State => v.channel k) h :)

/-- The oldest record leaves where it is closed. -/
theorem Channel.records_taken (c : Channel) :
    c.taken.records = (match c.records with
      | r :: rest => if r.duration = none then r :: rest else rest
      | [] => []) := by
  rw [Channel.taken]
  cases c.records with
  | nil => rfl
  | cons r rest => cases hd : r.duration <;> simp [hd]

/-- Settles O10: each read is a delivery that fixes its object, READ_CAPTURE's with the channel read out by it. -/
theorem singleReads : Obligations.SingleReads := by
  unfold Obligations.SingleReads
  refine ⟨fun s p hr => ?_, fun s b => ⟨fun hr hb => ?_, fun hr hb => ?_, fun hr hb => ?_⟩⟩
  · obtain ⟨t, hexec, hdelivered, hbare, hobject, hcursor⟩ := exec_readStatus hr
    exact ⟨t, hexec, hdelivered, hbare, hobject, hcursor, hobject ▸ t.length_statusObject p⟩
  · exact exec_deliverObject rfl rfl hr rfl (decide_eq_true hb) fun _ => rfl
  · exact exec_deliverObject rfl rfl hr rfl (decide_eq_true hb) fun _ => rfl
  · obtain ⟨t, hexec, hdelivered, hbare, hobject⟩ := exec_readCapture hr hb
    have hchannel : t.channel b.toNat = (s.channel b.toNat).taken :=
      (State.channel_of_bare_eq hbare _).trans (by simp)
    refine ⟨t, hexec, hdelivered, hobject, hobject ▸ s.length_captureObject _, ?_, ?_, ?_, fun j hj => ?_, ?_⟩
    · rw [hchannel, Channel.taken]
    · exact (congrArg Channel.records hchannel).trans (Channel.records_taken _)
    · rw [hchannel, Channel.taken]
    · exact (State.channel_of_bare_eq hbare j).trans (by rw [State.channel_modChannel, if_neg hj])
    · have hscu : t.scu = (s.modChannel b.toNat Channel.taken).scu :=
        (congrArg (fun v : State => v.scu) hbare :)
      rw [hbare, hscu]
      rfl

/-! ### A sequence of objects -/

/-- A read of a sequence from `start`: the first object is of the state that the read leaves. -/
theorem exec_deliverRead {c : Instr} {w : WireCmd} {start : State → Option Cursor} {s : State} {cur : Cursor} {ok : Prop}
    [Decidable ok] (hw : wire c = some w) (hr : s.accepts c = true) (hc : exec c s = deliverRead c start s)
    (hstart : ∀ u : State, u.form = s.form → start u = if ok then some cur else none) :
    ∃ t, exec c s = .next t
      ∧ (ok → Delivered s t w.port .done ∧ (t.txn w.port).object = t.objectAt cur ∧ (t.txn w.port).cursor = cur.next
          ∧ t.bare = { s with draws := s.draws + 1 }.bare)
      ∧ (¬ ok → Delivered s t w.port .range ∧ (t.txn w.port).object = [] ∧ t.bare = s.bare) := by
  have hother := State.txn_setTxn_ne s (otherPort_ne w.port) (Txn.received w)
  have hsup : (s.setTxn w.port (Txn.received w)).pau.supLeft = s.pau.supLeft := by rw [State.setTxn_pau]
  have hact := hstart (s.setTxn w.port (Txn.received w)) (by simp)
  by_cases hok : ok
  · rw [if_pos hok] at hact
    obtain ⟨t, hexec, hdelivered, hbare, hobject, hcursor, hstate⟩ :=
      exec_read (code := .done) (u := { s.setTxn w.port (Txn.received w) with draws := s.draws + 1 })
        (o := some (State.objectAt (State.superviseDelivery
          { s.setTxn w.port (Txn.received w) with draws := s.draws + 1 } w.port) cur, cur.next))
        hw hr hc (by dsimp only; rw [hact]; simp)
        (by dsimp only; rw [if_pos rfl, hstart _ (by simp), if_pos hok, Option.map_some]) (by rw [← hother]; cases w.port <;> rfl)
        hsup
    refine ⟨t, hexec, fun _ => ⟨hdelivered, hobject.trans ?_, hcursor, hbare.trans ?_⟩, fun hno => absurd hok hno⟩
    · rw [hstate, State.objectAt_setTxn]
      rfl
    · cases w.port <;> rfl
  · rw [if_neg hok] at hact
    obtain ⟨t, hexec, hdelivered, hbare, hobject, -, -⟩ :=
      exec_read (code := .range) (u := s.setTxn w.port (Txn.received w)) (o := none) hw hr hc
        (by rw [hact]) rfl hother hsup
    exact ⟨t, hexec, fun h => absurd h hok, fun _ => ⟨hdelivered, hobject, hbare.trans (State.setTxn_bare ..)⟩⟩

/-- Settles O11: the four reads of a sequence, each from the cursor of its first number. -/
theorem sequenceReads : Obligations.SequenceReads := by
  unfold Obligations.SequenceReads
  intro s c p cur ok hread hr
  have hdec := Classical.propDecidable ok
  rcases hread with ⟨i, rfl, rfl, rfl, hok⟩ | ⟨z, rfl, rfl, hok⟩ | ⟨k, rfl, rfl, rfl, hok⟩ | ⟨k, rfl, rfl, rfl, hok⟩
  · exact exec_deliverRead (w := ⟨.dispatch, _, _⟩) rfl hr rfl fun u hform => by simp only [hok, hform]
  · exact exec_deliverRead (w := ⟨p, _, _⟩) rfl hr rfl fun u _ => by simp only [hok]
  · exact exec_deliverRead (w := ⟨.dispatch, _, _⟩) rfl hr rfl fun u _ => by simp only [hok]
  · exact exec_deliverRead (w := ⟨.dispatch, _, _⟩) rfl hr rfl fun u _ => by simp only [hok]

end Sys2Proof.Machine
end

section
/-! PROOFS. Misses (R24, R45, R47): what the move to OFFLINE and one miss write, and what stands. -/

-- One proof after another: begun all at once, the proofs of the whole text outgrow the check's memory.
set_option Elab.async false

namespace Sys2Proof.Machine

/-! ### A state without what records, events and FIELD_CLEAR show -/

/-- A state without its four tables of records, its event sets and FIELD_CLEAR. -/
def State.offRecords (s : State) : State :=
  { s.offTable with devents := 0, pevents := 0, pau := { s.pau with fieldClear := false } }

section
variable (s : State)

@[simp] theorem State.offRecords_raiseD (e : DEvent) : (s.raiseD e).offRecords = s.offRecords := rfl
@[simp] theorem State.offRecords_raiseBoth (d : DEvent) (e : PEvent) : (s.raiseBoth d e).offRecords = s.offRecords := rfl
@[simp] theorem State.offRecords_modHel (i : Nat) (f : Hel → Hel) : (s.modHel i f).offRecords = s.offRecords := rfl
@[simp] theorem State.offRecords_modZone (z : Nat) (f : Zone → Zone) : (s.modZone z f).offRecords = s.offRecords := rfl
@[simp] theorem State.offRecords_modSeg (k : Nat) (f : Seg → Seg) : (s.modSeg k f).offRecords = s.offRecords := rfl

theorem State.offRecords_of_offTable {t u : State} (h : t.offTable = u.offTable) : t.offRecords = u.offRecords :=
  (congrArg (fun v : State => v.offRecords) h :)

@[simp] theorem State.offRecords_refreshClear : s.refreshClear.offRecords = s.offRecords := by
  unfold State.refreshClear
  generalize s.fieldIsClear = b
  dsimp only
  split <;> rfl

@[simp] theorem State.offRecords_depart (i : Nat) (dst : HState) : (s.depart i dst).offRecords = s.offRecords :=
  State.offRecords_of_offTable (s.departFrom_offTable _ i dst)

@[simp] theorem State.offRecords_dequeue (i : Nat) (dst : HState) : (s.dequeue i dst).offRecords = s.offRecords := rfl

@[simp] theorem State.offRecords_departStranding (i : Nat) (dst : HState) :
    (s.departStranding i dst).offRecords = s.offRecords := by
  rw [State.departStranding_eq]
  exact s.offRecords_depart i dst

end

/-! ### A departure that strands flux (R47, R61) -/

section
variable (s : State) (i j y k : Nat) (dst : HState)

theorem State.hel_departStranding : (s.departStranding i dst).hel j =
    if j = i then { s.hel i with
      state := dst
      onAlternate := false
      departing := true
      departureZone := some (s.joinZone (s.hel i))
      stranded := some ⟨s.joinZone (s.hel i), s.pEff (s.hel i)⟩ }
    else s.hel j := by
  rw [State.departStranding_eq, State.hel_strandAt]
  split
  next => rw [State.hel_depart, if_pos rfl]
  next h => rw [State.hel_depart, if_neg h]

theorem State.zone_departStranding : (s.departStranding i dst).zone y =
    if y = s.joinZone (s.hel i) then { s.zone y with
      joinList := (s.zone y).joinList.erase i
      pendingDepartures := (s.zone y).pendingDepartures + 1
      stranded := (s.zone y).stranded + s.pEff (s.hel i) }
    else s.zone y := by
  rw [State.departStranding_eq, State.zone_strandAt]
  split
  next h => rw [State.zone_depart, if_pos rfl, h]
  next h => rw [State.zone_depart, if_neg h]

theorem State.seg_still_departStranding : ((s.departStranding i dst).seg k).still = (s.seg k).still :=
  (s.depart_frame i dst).2.2.2.1 k

end

/-! ### The move to OFFLINE (R45) -/

/-- A record without what the moves between collections and a stranding write. -/
def Hel.fixed (h : Hel) : Hel := { h.still with stranded := none }

section
variable {s : State} {i : Nat}

theorem State.goOffline_of_onTarget (h : (s.hel i).state = .onTarget) :
    s.goOffline i = (s.departStranding i .offline).raiseD .heliostatOffline := by
  rw [State.goOffline, h]

theorem State.goOffline_of_queued (h : (s.hel i).state = .queued) :
    s.goOffline i = (s.dequeue i .offline).raiseD .heliostatOffline := by
  rw [State.goOffline, h]

theorem State.goOffline_of_idle (h : (s.hel i).state = .stowed ∨ (s.hel i).state = .standby) :
    s.goOffline i = (s.modHel i fun g => { g with state := .offline }).raiseD .heliostatOffline := by
  rcases h with h | h <;> rw [State.goOffline, h]

theorem State.goOffline_of_kept
    (h : (s.hel i).state = .offline ∨ (s.hel i).state = .faulted ∨ (s.hel i).state = .excluded ∨ (s.hel i).state = .absent) :
    s.goOffline i = s := by
  rcases h with h | h | h | h <;> rw [State.goOffline, h]

/-- The four ways a move to OFFLINE can go. -/
theorem State.goOffline_cases (P : State → Prop)
    (aimed : (s.hel i).state = .onTarget → P ((s.departStranding i .offline).raiseD .heliostatOffline))
    (queued : (s.hel i).state = .queued → P ((s.dequeue i .offline).raiseD .heliostatOffline))
    (idle : (s.hel i).state = .stowed ∨ (s.hel i).state = .standby →
      P ((s.modHel i fun g => { g with state := .offline }).raiseD .heliostatOffline))
    (kept : P s) : P (s.goOffline i) := by
  cases hs : (s.hel i).state with
  | onTarget => exact State.goOffline_of_onTarget hs ▸ aimed hs
  | queued => exact State.goOffline_of_queued hs ▸ queued hs
  | stowed => exact State.goOffline_of_idle (.inl hs) ▸ idle (.inl hs)
  | standby => exact State.goOffline_of_idle (.inr hs) ▸ idle (.inr hs)
  | offline => exact (State.goOffline_of_kept (.inl hs)).symm ▸ kept
  | faulted => exact (State.goOffline_of_kept (.inr (.inl hs))).symm ▸ kept
  | excluded => exact (State.goOffline_of_kept (.inr (.inr (.inl hs)))).symm ▸ kept
  | absent => exact (State.goOffline_of_kept (.inr (.inr (.inr hs)))).symm ▸ kept

variable (s i)

theorem State.offRecords_goOffline : (s.goOffline i).offRecords = s.offRecords := by
  refine State.goOffline_cases (fun u => u.offRecords = s.offRecords) (fun _ => ?_) (fun _ => ?_) (fun _ => ?_) rfl
  · rw [State.offRecords_raiseD, State.offRecords_departStranding]
  · rw [State.offRecords_raiseD, State.offRecords_dequeue]
  · rw [State.offRecords_raiseD, State.offRecords_modHel]

theorem State.hel_goOffline_of_ne {j : Nat} (hj : j ≠ i) : (s.goOffline i).hel j = s.hel j := by
  refine State.goOffline_cases (fun u => u.hel j = s.hel j) (fun _ => ?_) (fun _ => ?_) (fun _ => ?_) rfl
  · rw [State.raiseD_hel, s.hel_departStranding, if_neg hj]
  · rw [State.raiseD_hel, s.hel_dequeue, if_neg hj]
  · rw [State.raiseD_hel, s.hel_modHel, if_neg hj]

/-- Nothing of a record but its collection and its stranded amount changes. -/
theorem State.fixed_goOffline (j : Nat) : ((s.goOffline i).hel j).fixed = (s.hel j).fixed := by
  by_cases hj : j = i
  · subst hj
    refine State.goOffline_cases (fun u => (u.hel j).fixed = (s.hel j).fixed) (fun _ => ?_) (fun _ => ?_) (fun _ => ?_) rfl
    · rw [State.raiseD_hel, s.hel_departStranding, if_pos rfl]
      rfl
    · rw [State.raiseD_hel, s.hel_dequeue, if_pos rfl]
      rfl
    · rw [State.raiseD_hel, s.hel_modHel, if_pos rfl]
      rfl
  · rw [s.hel_goOffline_of_ne i hj]

/-- No record becomes absent by it. -/
theorem State.present_goOffline {j : Nat} (hj : (s.hel j).state ≠ .absent) : ((s.goOffline i).hel j).state ≠ .absent := by
  by_cases hji : j = i
  · subst hji
    refine State.goOffline_cases (fun u => (u.hel j).state ≠ .absent) (fun _ => ?_) (fun _ => ?_) (fun _ => ?_) hj
    · rw [State.raiseD_hel, s.hel_departStranding, if_pos rfl]
      exact HState.noConfusion
    · rw [State.raiseD_hel, s.hel_dequeue, if_pos rfl]
      exact HState.noConfusion
    · rw [State.raiseD_hel, s.hel_modHel, if_pos rfl]
      exact HState.noConfusion
  · rwa [s.hel_goOffline_of_ne i hji]

theorem State.seg_still_goOffline (k : Nat) : ((s.goOffline i).seg k).still = (s.seg k).still :=
  State.goOffline_cases (fun u => (u.seg k).still = (s.seg k).still) (fun _ => s.seg_still_departStranding i k _) (fun _ => rfl)
    (fun _ => rfl) rfl

theorem State.dPending_of_offTable {t u : State} (h : t.offTable = u.offTable) (e : DEvent) : t.dPending e = u.dPending e := by
  change t.offTable.dPending e = u.offTable.dPending e
  rw [h]

theorem State.dPending_raiseD_of_offTable {t u : State} (h : t.offTable = u.offTable) {e : DEvent} (he : u.dPending e = true)
    (d : DEvent) : (t.raiseD d).dPending e = true := by
  rw [State.dPending_raiseD_iff, State.dPending_of_offTable h, he, Bool.true_or]

theorem State.dPending_goOffline {e : DEvent} (he : s.dPending e = true) : (s.goOffline i).dPending e = true := by
  refine State.goOffline_cases (fun u => u.dPending e = true) (fun _ => ?_) (fun _ => ?_) (fun _ => ?_) he
  all_goals refine State.dPending_raiseD_of_offTable (u := s) ?_ he _
  · rw [State.departStranding_eq, State.strandAt, State.modHel_offTable, State.modZone_offTable, State.depart, State.departFrom_offTable]
  · rfl
  · rfl

end

/-! ### One miss (R24, R45) -/

/-- A record whose miss count is raised, stopping at 15 (R24). -/
def Hel.missed (h : Hel) : Hel := { h with miss := min 15 (h.miss + 1) }

section
variable (s : State) (i : Nat)

theorem State.missOne_eq : s.missOne i =
    if s.link.missLimit ≤ min 15 ((s.hel i).miss + 1) then (s.modHel i Hel.missed).goOffline i else s.modHel i Hel.missed :=
  rfl

theorem State.hel_missOne_of_ne {j : Nat} (hj : j ≠ i) : (s.missOne i).hel j = s.hel j := by
  have hwrite : (s.modHel i Hel.missed).hel j = s.hel j := by rw [State.hel_modHel, if_neg hj]
  rw [State.missOne_eq]
  split
  · rw [State.hel_goOffline_of_ne _ _ hj, hwrite]
  · exact hwrite

/-- One miss of a record writes its miss count, and no more but collection and stranded amount. -/
theorem State.fixed_missOne (j : Nat) : ((s.missOne i).hel j).fixed = if j = i then (s.hel i).missed.fixed else (s.hel j).fixed := by
  have hwrite : ((s.modHel i Hel.missed).hel j).fixed = if j = i then (s.hel i).missed.fixed else (s.hel j).fixed := by
    rw [State.hel_modHel]
    split <;> rfl
  rw [State.missOne_eq]
  split
  · rw [State.fixed_goOffline, hwrite]
  · exact hwrite

theorem State.offRecords_missOne : (s.missOne i).offRecords = s.offRecords := by
  rw [State.missOne_eq]
  split
  · rw [State.offRecords_goOffline]; rfl
  · rfl

theorem State.present_missOne {j : Nat} (hj : (s.hel j).state ≠ .absent) : ((s.missOne i).hel j).state ≠ .absent := by
  have hwrite : ((s.modHel i Hel.missed).hel j).state ≠ .absent := by
    rw [State.hel_modHel]
    split
    next h => exact h ▸ hj
    next => exact hj
  rw [State.missOne_eq]
  split
  · exact State.present_goOffline _ i hwrite
  · exact hwrite

theorem State.seg_still_missOne (k : Nat) : ((s.missOne i).seg k).still = (s.seg k).still := by
  rw [State.missOne_eq]
  split
  · rw [State.seg_still_goOffline]; rfl
  · rfl

theorem State.dPending_missOne {e : DEvent} (he : s.dPending e = true) : (s.missOne i).dPending e = true := by
  rw [State.missOne_eq]
  split
  · exact State.dPending_goOffline (s.modHel i Hel.missed) i he
  · exact he

end

end Sys2Proof.Machine
end

section
/-! PROOFS. The completion of a sweep (R73, R87, R95, R133): the accrual of misses, the commit, and the start of the stagger generator. -/

-- One proof after another: begun all at once, the proofs of the whole text outgrow the check's memory.
set_option Elab.async false

namespace Sys2Proof.Machine

/-! ### The start of the stagger generator -/

/-- A segment takes no release: it is LOCKED or DISABLED. -/
def Seg.dead (g : Seg) : Prop := g.state = .locked ∨ g.state = .disabled

section
variable {s : State}

/-- The three ways a release can go (R120). -/
theorem State.release_cases {k : Nat} (P : State → Prop)
    (starts : (s.seg k).state = .idle ∨ (s.seg k).state = .waiting → P (s.modSeg k Seg.passStart))
    (overruns : (s.seg k).state = .passing → P ((s.modSeg k fun g => { g with pendingRelease := true }).raiseD .passOverrun))
    (discarded : (s.seg k).dead → P s) : P (s.release k) := by
  unfold State.release
  split
  next h => exact starts (.inl h)
  next h => exact starts (.inr h)
  next h => exact overruns h
  next h => exact discarded (.inl h)
  next h => exact discarded (.inr h)

theorem State.dead_modSeg {k j : Nat} {f : Seg → Seg} (h : (f (s.seg k)).dead ↔ (s.seg k).dead) :
    ((s.modSeg k f).seg j).dead ↔ (s.seg j).dead := by
  rw [State.seg_modSeg]
  split
  next hj => rw [h, hj]
  next => exact Iff.rfl

theorem State.dead_release (k j : Nat) : ((s.release k).seg j).dead ↔ (s.seg j).dead := by
  refine State.release_cases (fun u => (u.seg j).dead ↔ (s.seg j).dead) (fun h => ?_) (fun _ => ?_) fun _ => Iff.rfl
  · refine State.dead_modSeg ⟨fun hd => (by rcases hd with hd | hd <;> cases hd), fun hd => ?_⟩
    rcases h with h | h <;> rcases hd with hd | hd <;> cases h.symm.trans hd
  · exact State.dead_modSeg (s := s) (f := fun g => { g with pendingRelease := true }) Iff.rfl

theorem Seg.dead_await (g : Seg) : g.await.dead ↔ g.dead := by
  unfold Seg.await
  split
  next h => simp [Seg.dead, h]
  next => exact Iff.rfl

variable (s) (k : Nat)

/-- What a draw writes before its release is handed over or its segment waits. -/
def State.drawn : State :=
  State.setTimer { s with rsg := { s.rsg with reg := rsgNext s.rsg.reg } } k (s.rsg.load k)

theorem State.draw_eq : s.draw k =
    if s.rsg.load k = none then (s.drawn k).release k else (s.drawn k).modSeg k Seg.await := by
  unfold State.draw State.drawn Rsg.load
  dsimp only
  by_cases hd : k * s.rsg.stepMs + s.rsg.reg.toNat % (s.rsg.dmax + 1) = 0
  · simp only [if_pos hd, if_true]
  · simp only [if_neg hd, reduceCtorEq, if_false]

theorem State.dead_draw (j : Nat) : ((s.draw k).seg j).dead ↔ (s.seg j).dead := by
  rw [State.draw_eq]
  split
  · exact State.dead_release k j
  · exact State.dead_modSeg (s := s.drawn k) (Seg.dead_await _)

theorem State.offRecords_release : (s.release k).offRecords = s.offRecords :=
  State.release_cases (fun u => u.offRecords = s.offRecords) (fun _ => rfl) (fun _ => rfl) fun _ => rfl

theorem State.tables_release : (s.release k).hels = s.hels ∧ (s.release k).zones = s.zones ∧ (s.release k).points = s.points :=
  State.release_cases (fun u => u.hels = s.hels ∧ u.zones = s.zones ∧ u.points = s.points) (fun _ => ⟨rfl, rfl, rfl⟩)
    (fun _ => ⟨rfl, rfl, rfl⟩) fun _ => ⟨rfl, rfl, rfl⟩

theorem State.dPending_release {e : DEvent} (he : s.dPending e = true) : (s.release k).dPending e = true :=
  State.release_cases (fun u => u.dPending e = true) (fun _ => he)
    (fun _ => State.dPending_raiseD_of_offTable (u := s) rfl he _) fun _ => he

/-- A draw writes the generator, its segment and PASS_OVERRUN. -/
theorem State.offRecords_draw : { (s.draw k).offRecords with rsg := s.rsg } = s.offRecords := by
  have hdrawn : { (s.drawn k).offRecords with rsg := s.rsg } = s.offRecords := rfl
  rw [State.draw_eq]
  split
  · rw [State.offRecords_release, hdrawn]
  · rw [State.offRecords_modSeg, hdrawn]

theorem State.tables_draw : (s.draw k).hels = s.hels ∧ (s.draw k).zones = s.zones ∧ (s.draw k).points = s.points := by
  rw [State.draw_eq]
  split
  · exact (s.drawn k).tables_release k
  · exact ⟨rfl, rfl, rfl⟩

theorem State.dPending_draw {e : DEvent} (he : s.dPending e = true) : (s.draw k).dPending e = true := by
  rw [State.draw_eq]
  split
  · exact (s.drawn k).dPending_release k he
  · exact he

end

/-- What every draw keeps, a start of the generator keeps. -/
theorem State.startRsg_keeps {s : State} {P : State → Prop} (h : ∀ u k, P u → P (u.draw k)) (hs : P s) : P s.startRsg :=
  List.foldlRecOn _ _ hs fun u hu k _ => h u k hu

section
variable (s : State)

theorem State.dead_startRsg (j : Nat) : (s.startRsg.seg j).dead ↔ (s.seg j).dead :=
  State.startRsg_keeps (P := fun u => (u.seg j).dead ↔ (s.seg j).dead) (fun u k hu => (u.dead_draw k j).trans hu) Iff.rfl

theorem State.offRecords_startRsg : { s.startRsg.offRecords with rsg := s.rsg } = s.offRecords :=
  State.startRsg_keeps (P := fun u => { u.offRecords with rsg := s.rsg } = s.offRecords)
    (fun u k hu => by rw [← hu, ← u.offRecords_draw k]) rfl

theorem State.tables_startRsg : s.startRsg.hels = s.hels ∧ s.startRsg.zones = s.zones ∧ s.startRsg.points = s.points :=
  State.startRsg_keeps (P := fun u => u.hels = s.hels ∧ u.zones = s.zones ∧ u.points = s.points)
    (fun u k ⟨hhels, hzones, hpoints⟩ =>
      have ⟨h1, h2, h3⟩ := u.tables_draw k
      ⟨h1.trans hhels, h2.trans hzones, h3.trans hpoints⟩) ⟨rfl, rfl, rfl⟩

theorem State.dPending_startRsg {e : DEvent} (he : s.dPending e = true) : s.startRsg.dPending e = true :=
  State.startRsg_keeps (P := fun u => u.dPending e = true) (fun u k hu => u.dPending_draw k hu) he

end

/-! ### The accrual of misses (R133) -/

section
variable (s : State)

theorem State.fixed_foldl_missOne (l : List Nat) (hl : l.Nodup) (j : Nat) :
    ((l.foldl State.missOne s).hel j).fixed = if j ∈ l then (s.hel j).missed.fixed else (s.hel j).fixed := by
  induction l generalizing s with
  | nil => rw [if_neg List.not_mem_nil]; rfl
  | cons i l ih =>
    obtain ⟨hi, hrest⟩ := List.nodup_cons.1 hl
    have hmissed (g : Hel) : g.missed.fixed = g.fixed.missed := rfl
    rw [List.foldl_cons, ih _ hrest, hmissed, State.fixed_missOne]
    by_cases hj : j = i
    · subst hj
      rw [if_neg hi, if_pos rfl, if_pos List.mem_cons_self]
    · simp only [if_neg hj, List.mem_cons, or_iff_right hj]
      rfl

/-- The records that an accrual of the segments `ks` counts a miss in. -/
theorem State.mem_accrued {i : Nat} (ks : List Nat) (hi : i ∈ s.present) :
    i ∈ s.present.filter (fun i => (s.hel i).segment ∈ ks.filter fun k => (s.seg k).state == .locked || (s.seg k).state == .disabled)
      ↔ (s.hel i).segment ∈ ks ∧ (s.seg (s.hel i).segment).dead := by
  simp [hi, Seg.dead]

theorem State.fixed_accrue (ks : List Nat) (hwf : s.tablesOk = true) {i : Nat} (hi : i ∈ s.present)
    [Decidable ((s.hel i).segment ∈ ks ∧ (s.seg (s.hel i).segment).dead)] :
    ((s.accrue ks).hel i).fixed =
      if (s.hel i).segment ∈ ks ∧ (s.seg (s.hel i).segment).dead then (s.hel i).missed.fixed else (s.hel i).fixed := by
  have hnodup := State.present_nodup ((State.tablesOk_iff s).1 hwf).1
  unfold State.accrue
  dsimp only
  rw [State.fixed_foldl_missOne _ _ (hnodup.filter _)]
  simp only [s.mem_accrued ks hi]

/-- What every miss keeps, an accrual keeps. -/
theorem State.accrue_keeps {P : State → Prop} (ks : List Nat) (h : ∀ u i, P u → P (u.missOne i)) (hs : P s) : P (s.accrue ks) :=
  List.foldlRecOn _ _ hs fun u hu i _ => h u i hu

variable (ks : List Nat)

theorem State.offRecords_accrue : (s.accrue ks).offRecords = s.offRecords :=
  s.accrue_keeps (P := fun u => u.offRecords = s.offRecords) ks (fun u i hu => (u.offRecords_missOne i).trans hu) rfl

theorem State.present_accrue {j : Nat} (hj : (s.hel j).state ≠ .absent) : ((s.accrue ks).hel j).state ≠ .absent :=
  s.accrue_keeps (P := fun u => (u.hel j).state ≠ .absent) ks (fun u i hu => u.present_missOne i hu) hj

theorem State.dead_accrue (k : Nat) : ((s.accrue ks).seg k).dead ↔ (s.seg k).dead := by
  have hstill : ((s.accrue ks).seg k).still = (s.seg k).still :=
    s.accrue_keeps (P := fun u => (u.seg k).still = (s.seg k).still) ks (fun u i hu => (u.seg_still_missOne i k).trans hu) rfl
  have hstate : ((s.accrue ks).seg k).state = (s.seg k).state := (congrArg (fun g : Seg => g.state) hstill :)
  rw [Seg.dead, hstate]
  rfl

theorem State.dPending_accrue {e : DEvent} (he : s.dPending e = true) : (s.accrue ks).dPending e = true :=
  s.accrue_keeps (P := fun u => u.dPending e = true) ks (fun u i hu => u.dPending_missOne i hu) he

theorem State.accrue_nil : s.accrue [] = s := by
  unfold State.accrue
  simp

theorem State.accrue_of_present_eq_nil (h : s.present = []) : s.accrue ks = s := by
  unfold State.accrue
  rw [h]
  rfl

end

end Sys2Proof.Machine
end

section
/-! PROOFS. The completion of a sweep (R73, R87, R95, R133): the commit and the four steps of the completion. -/

-- One proof after another: begun all at once, the proofs of the whole text outgrow the check's memory.
set_option Elab.async false

namespace Sys2Proof.Machine

/-! ### What settlements leave of records -/

/-- The first step of a completion: no sweep is in flight, and the count rises. -/
def State.sweepEnded (s : State) : State :=
  { s with sweep := { s.sweep with inFlight := false, count := (s.sweep.count + 1) % 65536 } }

theorem State.offRecords_settleAll (s : State) : s.settleAll.offRecords = s.offRecords :=
  SettleKeeps.settleAll (P := fun u => u.offRecords = s.offRecords)
    { shed := fun u z h => (State.offRecords_of_offTable (u.shedOne_offTable z)).trans h
      grant := fun u z i _ h => (State.offRecords_of_offTable (u.grant_offTable z i)).trans h
      zoneState := fun _ _ _ h => h
      raise := fun _ _ _ h => h } rfl

/-- No record becomes absent by a settlement. -/
theorem settleKeeps_present (j : Nat) : SettleKeeps fun u => (u.hel j).state ≠ .absent where
  shed u z h := by
    cases hl : (u.zone z).joinList.getLast? with
    | none => rwa [State.shedOne, hl]
    | some i =>
      rw [State.shedOne_of_newest hl]
      split
      · rw [State.hel_reroute]
        split
        next hj => exact hj ▸ h
        next => exact h
      · rw [State.hel_enqueue]
        split
        · exact HState.noConfusion
        next hj => rwa [State.hel_departFrom, if_neg hj]
  grant u z i _ h := by
    rw [State.hel_grant]
    split
    · exact HState.noConfusion
    · exact h
  zoneState _ _ _ h := h
  raise _ _ _ h := h

section
variable {t u : State} (h : t.offRecords = u.offRecords)
include h

theorem State.rsg_of_offRecords : t.rsg = u.rsg := (congrArg (fun v : State => v.rsg) h :)
theorem State.sweepEnded_of_offRecords : t.sweepEnded.offRecords = u.sweepEnded.offRecords :=
  (congrArg (fun v : State => v.sweepEnded) h :)

end

theorem State.hel_congr {s t : State} (h : t.hels = s.hels) (i : Nat) : t.hel i = s.hel i :=
  congrArg (Tab.get Hel.empty · i) h

theorem SettleFrame.fixed_eq {s t : State} (h : SettleFrame s t) (i : Nat) : (t.hel i).fixed = (s.hel i).fixed :=
  congrArg (fun g : Hel => ({ g with stranded := none } : Hel)) (h.1 i)

theorem SettleFrame.dead_iff {s t : State} (h : SettleFrame s t) (k : Nat) : (t.seg k).dead ↔ (s.seg k).dead := by
  have hstate : (t.seg k).state = (s.seg k).state := (congrArg (fun g : Seg => g.state) (h.2.2.2.1 k) :)
  rw [Seg.dead, hstate]
  rfl

/-! ### The four steps of a completion (R87) -/

section
variable (s : State)

theorem State.finishSweep_eq : s.finishSweep = (s.sweepEnded.commit.settleAll.raiseD .sweepDone).startRsg := rfl

theorem State.offRecords_commit : s.commit.offRecords = s.offRecords := rfl

theorem State.hel_commit (hwf : s.tablesOk = true) {i : Nat} (hi : i ∈ s.present) : s.commit.hel i = (s.hel i).commit :=
  Tab.get_update_mem _ _ _ _ hi (State.present_nodup ((State.tablesOk_iff s).1 hwf).1)

theorem Hel.state_commit (h : Hel) : h.commit.state = h.state := by
  unfold Hel.commit
  split <;> rfl

/-- What the stagger generator and SWEEP_DONE leave of the records of a settled state. -/
theorem State.hel_finishSweep (i : Nat) : s.finishSweep.hel i = s.sweepEnded.commit.settleAll.hel i := by
  rw [State.finishSweep_eq]
  rw [State.hel_congr (State.tables_startRsg _).1, State.raiseD_hel]

/-- A present record after the four steps: its products are committed. -/
theorem State.fixed_finishSweep (hwf : s.tablesOk = true) {i : Nat} (hi : i ∈ s.present) :
    (s.finishSweep.hel i).fixed = (s.hel i).commit.fixed := by
  rw [State.hel_finishSweep, (State.settleAll_frame _).fixed_eq, State.hel_commit s.sweepEnded hwf hi]
  rfl

theorem State.present_finishSweep (hwf : s.tablesOk = true) {i : Nat} (hi : i ∈ s.present) :
    (s.finishSweep.hel i).state ≠ .absent := by
  rw [State.hel_finishSweep]
  refine (settleKeeps_present i).settleAll ?_
  rw [State.hel_commit s.sweepEnded hwf hi, Hel.state_commit]
  exact (State.mem_present_iff ((State.tablesOk_iff s).1 hwf).1).1 hi

theorem State.dead_finishSweep (k : Nat) : (s.finishSweep.seg k).dead ↔ (s.seg k).dead := by
  rw [State.finishSweep_eq]
  have hsettled := (State.settleAll_frame s.sweepEnded.commit).dead_iff k
  generalize s.sweepEnded.commit.settleAll = u at hsettled ⊢
  exact (State.dead_startRsg _ k).trans hsettled

theorem State.offRecords_settled :
    (s.sweepEnded.commit.settleAll.raiseD .sweepDone).offRecords = s.sweepEnded.offRecords := by
  rw [State.offRecords_raiseD, State.offRecords_settleAll, State.offRecords_commit]

theorem State.offRecords_finishSweep : { s.finishSweep.offRecords with rsg := s.rsg } = s.sweepEnded.offRecords := by
  have hsettled := s.offRecords_settled
  have hrsg := State.rsg_of_offRecords hsettled
  rw [State.finishSweep_eq]
  generalize s.sweepEnded.commit.settleAll.raiseD .sweepDone = u at hsettled hrsg ⊢
  rw [← hsettled, ← u.offRecords_startRsg, hrsg]
  rfl

/-- The generator's register and timers after a completion (R95). -/
theorem State.rsg_finishSweep : s.finishSweep.rsg.reg = rsgNext^[8] s.rsg.reg
    ∧ ∀ k < 8, s.finishSweep.timer k = Rsg.load { s.rsg with reg := rsgNext^[k] s.rsg.reg } k := by
  have hrsg : (s.sweepEnded.commit.settleAll.raiseD .sweepDone).rsg = s.rsg :=
    (State.rsg_of_offRecords s.offRecords_settled).trans rfl
  rw [State.finishSweep_eq, State.startRsg_eq_drawFirst]
  refine ⟨?_, fun k hk => ?_⟩
  · rw [State.rsg_drawFirst, hrsg]
  · rw [State.timer_drawFirst _ 8 hk, hrsg]

theorem State.dPending_finishSweep : s.finishSweep.dPending .sweepDone = true := by
  rw [State.finishSweep_eq]
  exact State.dPending_startRsg _ (State.dPending_raiseD _ _)

theorem State.zoneSafe_congr {s t : State} (hhels : t.hels = s.hels) (hzones : t.zones = s.zones) (hscu : t.scu = s.scu)
    {z : Nat} (h : s.zoneSafe z) : t.zoneSafe z := by
  simp only [State.zoneSafe, State.overLimit, State.limitW, State.committed, State.joinSum, State.pEff, State.shade,
    State.zone, State.hel, hhels, hzones, hscu] at h ⊢
  exact h

theorem State.zonesSafe_finishSweep : s.finishSweep.zonesSafe := by
  intro z hz
  have hsafe := State.zonesSafe_settleAll s.sweepEnded.commit z hz
  rw [State.finishSweep_eq]
  generalize s.sweepEnded.commit.settleAll = u at hsafe ⊢
  obtain ⟨hhels, hzones, -⟩ := State.tables_startRsg (u.raiseD .sweepDone)
  have hrest := State.offRecords_startRsg (u.raiseD .sweepDone)
  generalize (u.raiseD .sweepDone).startRsg = v at hhels hzones hrest ⊢
  have hscu : v.scu = u.scu := (congrArg (fun w : State => w.scu) hrest :)
  exact State.zoneSafe_congr hhels hzones hscu hsafe

end

/-! ### A completion -/

/-- The segments whose accrual is taken before the commit, and those whose accrual is taken after it (log 4). -/
def accruedBefore (first : Byte) : List Nat := (List.range 8).filter fun k => first.getLsbD k

def accruedAfter (first : Byte) : List Nat := (List.range 8).filter fun k => !first.getLsbD k

theorem accruedAfter_all : accruedAfter 0xFF = [] := by decide

/-- Each segment's accrual is taken once. -/
theorem mem_accruedAfter_iff (first : Byte) {k : Nat} (hk : k < 8) : k ∈ accruedAfter first ↔ k ∉ accruedBefore first := by
  simp [accruedAfter, accruedBefore, hk]

section
variable (s : State) (first : Byte)

theorem State.completeSweep_eq : s.completeSweep first =
    (((s.accrue (accruedBefore first)).finishSweep).accrue (accruedAfter first)).refreshClear := rfl

/-- What a completion writes besides the records, the events and FIELD_CLEAR: the end of the sweep, and the generator. -/
theorem State.offRecords_completeSweep : { (s.completeSweep first).offRecords with rsg := s.rsg } = s.sweepEnded.offRecords := by
  have hrsg := State.rsg_of_offRecords (s.offRecords_accrue (accruedBefore first))
  have hended := State.sweepEnded_of_offRecords (s.offRecords_accrue (accruedBefore first))
  rw [State.completeSweep_eq, State.offRecords_refreshClear, State.offRecords_accrue, ← hrsg, State.offRecords_finishSweep, hended]

theorem State.rsg_completeSweep : (s.completeSweep first).rsg.reg = rsgNext^[8] s.rsg.reg
    ∧ ∀ k < 8, (s.completeSweep first).timer k = Rsg.load { s.rsg with reg := rsgNext^[k] s.rsg.reg } k := by
  have hbefore := State.rsg_of_offRecords (s.offRecords_accrue (accruedBefore first))
  have hafter : (s.completeSweep first).rsg = (s.accrue (accruedBefore first)).finishSweep.rsg := by
    rw [State.completeSweep_eq]
    exact State.rsg_of_offRecords ((State.offRecords_refreshClear _).trans (State.offRecords_accrue _ _))
  obtain ⟨hreg, htimers⟩ := (s.accrue (accruedBefore first)).rsg_finishSweep
  refine ⟨by rw [hafter, hreg, hbefore], fun k hk => ?_⟩
  rw [State.timer_congr hafter, htimers k hk, hbefore]

theorem State.dPending_refreshClear (e : DEvent) : s.refreshClear.dPending e = s.dPending e := by
  rw [State.dPending, State.refreshClear_devents]
  rfl

theorem State.dPending_completeSweep : (s.completeSweep first).dPending .sweepDone = true := by
  rw [State.completeSweep_eq, State.dPending_refreshClear]
  exact State.dPending_accrue _ _ (State.dPending_finishSweep _)

theorem Hel.fixed_commit (h : Hel) : h.commit.fixed = h.fixed.commit := by
  unfold Hel.commit
  split
  next hm => rw [if_pos (show h.fixed.mark = true from hm)]; rfl
  next hm => rw [if_neg (show ¬ h.fixed.mark = true from hm)]; rfl

theorem Hel.fixed_missed (h : Hel) : h.missed.fixed = h.fixed.missed := rfl

theorem Hel.commit_missed (h : Hel) : h.missed.commit = h.commit.missed := by
  unfold Hel.commit
  split
  next hm => rw [if_pos (show h.mark = true from hm)]; rfl
  next hm => rw [if_neg (show ¬ h.mark = true from hm)]; rfl

/-- A present record after a completion: committed, and with one miss more on a LOCKED or DISABLED segment. -/
theorem State.fixed_completeSweep (hwf : s.tablesOk = true) {i : Nat} (hi : i ∈ s.present) (hsegment : (s.hel i).segment < 8)
    [Decidable (s.seg (s.hel i).segment).dead] :
    ((s.completeSweep first).hel i).fixed =
      if (s.seg (s.hel i).segment).dead then (s.hel i).fixed.commit.missed else (s.hel i).fixed.commit := by
  classical
  have hstate := (State.mem_present_iff ((State.tablesOk_iff s).1 hwf).1).1 hi
  have hbefore := s.fixed_accrue (accruedBefore first) hwf hi
  have hpresent : i ∈ (s.accrue (accruedBefore first)).present := State.mem_present_of_ne (s.present_accrue _ hstate)
  have hwf1 : (s.accrue (accruedBefore first)).tablesOk = true :=
    (Writes.accrue (p := false) .refl _).tablesOk hwf
  have hdone := State.fixed_finishSweep _ hwf1 hpresent
  have hpresent2 : i ∈ (s.accrue (accruedBefore first)).finishSweep.present :=
    State.mem_present_of_ne (State.present_finishSweep _ hwf1 hpresent)
  have hwf2 : (s.accrue (accruedBefore first)).finishSweep.tablesOk = true :=
    (Writes.finishSweep (p := false) .refl).tablesOk hwf1
  have hafter := State.fixed_accrue _ (accruedAfter first) hwf2 hpresent2
  have hdead k : ((s.accrue (accruedBefore first)).finishSweep.seg k).dead ↔ (s.seg k).dead :=
    (State.dead_finishSweep _ k).trans (s.dead_accrue _ k)
  rw [State.completeSweep_eq, State.refreshClear_hel]
  generalize (s.accrue (accruedBefore first)).finishSweep = v at hdone hafter hdead
  generalize s.accrue (accruedBefore first) = u at hbefore hdone
  have hseg1 : (u.hel i).segment = (s.hel i).segment := by
    have h := congrArg Hel.segment hbefore
    split at h
    · exact h
    · exact h
  have hseg2 : (v.hel i).segment = (s.hel i).segment := by
    have h := congrArg Hel.segment hdone
    rw [Hel.fixed_commit] at h
    unfold Hel.commit at h
    split at h
    · exact h.trans hseg1
    · exact h.trans hseg1
  rw [hafter, hseg2, Hel.fixed_missed, hdone, Hel.fixed_commit, hbefore, Hel.fixed_missed]
  simp only [hdead, mem_accruedAfter_iff first hsegment]
  by_cases hd : (s.seg (s.hel i).segment).dead
  · by_cases hb : (s.hel i).segment ∈ accruedBefore first
    · simp only [hd, hb, true_and, if_true, not_true, false_and, if_false, Hel.commit_missed]
    · simp only [hd, hb, false_and, if_false, not_false_iff, true_and, if_true]
  · simp only [hd, and_false, if_false]

end

end Sys2Proof.Machine
end

section
/-! PROOFS. Sweeps as they begin and end: SWEEP_COMPLETE (R87), the start of a sweep (R82) and EPOCH_NOW (R81). -/

-- One proof after another: begun all at once, the proofs of the whole text outgrow the check's memory.
set_option Elab.async false

namespace Sys2Proof.Machine

/-! ### SWEEP_COMPLETE -/

/-- What stands through a completion. -/
theorem State.rest_of_sweepEnded {s t : State} {g : Rsg} (h : { t.offRecords with rsg := g } = s.sweepEnded.offRecords) :
    t.ms = s.ms ∧ t.sun = s.sun ∧ t.snapshot = s.snapshot ∧ t.epoch = s.epoch ∧ t.link = s.link ∧ t.scu = s.scu
      ∧ t.dpt = s.dpt ∧ t.ppt = s.ppt ∧ t.dmask = s.dmask ∧ t.pmask = s.pmask ∧ t.form = s.form :=
  ⟨(congrArg (fun u : State => u.ms) h :), (congrArg (fun u : State => u.sun) h :), (congrArg (fun u : State => u.snapshot) h :),
    (congrArg (fun u : State => u.epoch) h :), (congrArg (fun u : State => u.link) h :), (congrArg (fun u : State => u.scu) h :),
    (congrArg (fun u : State => u.dpt) h :), (congrArg (fun u : State => u.ppt) h :), (congrArg (fun u : State => u.dmask) h :),
    (congrArg (fun u : State => u.pmask) h :), (congrArg (fun u : State => u.form) h :)⟩

theorem State.sweep_of_sweepEnded {s t : State} {g : Rsg} (h : { t.offRecords with rsg := g } = s.sweepEnded.offRecords) :
    t.sweep = { s.sweep with inFlight := false, count := (s.sweep.count + 1) % 65536 } :=
  (congrArg (fun u : State => u.sweep) h :)

theorem State.zonesSafe_completeSweep (s : State) : (s.completeSweep 0xFF).zonesSafe := by
  rw [State.completeSweep_eq, accruedAfter_all, State.accrue_nil]
  exact fun z hz => State.zoneSafe_refreshClear (State.zonesSafe_finishSweep _ z hz)

theorem Hel.products_of_fixed {h g : Hel} (e : g.fixed = h.fixed) :
    g.mark = h.mark ∧ g.pClear = h.pClear ∧ g.pValid = h.pValid ∧ g.miss = h.miss :=
  ⟨(congrArg (fun x : Hel => x.mark) e :), (congrArg (fun x : Hel => x.pClear) e :), (congrArg (fun x : Hel => x.pValid) e :),
    (congrArg (fun x : Hel => x.miss) e :)⟩

theorem Hel.products_commit (h : Hel) : h.commit.mark = false ∧ h.commit.pClear = (if h.mark then h.pNew else h.pClear)
    ∧ h.commit.pValid = (h.mark && h.pNewValid) ∧ h.commit.miss = h.miss := by
  unfold Hel.commit
  cases hm : h.mark <;> simp

/-- A present record's products and miss count after a completion. -/
theorem State.products_completeSweep {s : State} (first : Byte) (hwf : s.tablesOk = true) {i : Nat} (hi : i ∈ s.present)
    (hsegment : (s.hel i).segment < 8) :
    ((s.completeSweep first).hel i).mark = false
      ∧ ((s.completeSweep first).hel i).pClear = (if (s.hel i).mark then (s.hel i).pNew else (s.hel i).pClear)
      ∧ ((s.completeSweep first).hel i).pValid = ((s.hel i).mark && (s.hel i).pNewValid)
      ∧ ((s.completeSweep first).hel i).miss =
        if (s.seg (s.hel i).segment).state = .locked ∨ (s.seg (s.hel i).segment).state = .disabled then
          min 15 ((s.hel i).miss + 1)
        else (s.hel i).miss := by
  classical
  have hfixed := s.fixed_completeSweep first hwf hi hsegment
  obtain ⟨hmark, hclear, hvalid, hmiss⟩ := (s.hel i).products_commit
  by_cases hdead : (s.seg (s.hel i).segment).dead
  · rw [if_pos hdead, ← Hel.fixed_commit, ← Hel.fixed_missed] at hfixed
    obtain ⟨h1, h2, h3, h4⟩ := Hel.products_of_fixed hfixed
    refine ⟨h1.trans hmark, h2.trans hclear, h3.trans hvalid, ?_⟩
    rw [if_pos (c := _ ∨ _) hdead, h4, ← hmiss]
    rfl
  · rw [if_neg hdead, ← Hel.fixed_commit] at hfixed
    obtain ⟨h1, h2, h3, h4⟩ := Hel.products_of_fixed hfixed
    refine ⟨h1.trans hmark, h2.trans hclear, h3.trans hvalid, ?_⟩
    rw [if_neg (c := _ ∨ _) hdead, h4, hmiss]

/-- Settles O34: the completion, by what it leaves of each present record, of the generator and of all else. -/
theorem sweepComplete : Obligations.SweepComplete := by
  unfold Obligations.SweepComplete
  intro s first hflight hempty hwf hsegments
  have hexec : exec (.sweepComplete first) s = .next (s.completeSweep first) := by
    rw [show exec (.sweepComplete first) s = execSweepComplete first s from rfl, execSweepComplete,
      if_pos (by simp [hflight, hempty])]
  have hrest := s.offRecords_completeSweep first
  obtain ⟨hreg, htimers⟩ := s.rsg_completeSweep first
  refine ⟨_, hexec, State.sweep_of_sweepEnded hrest, s.dPending_completeSweep first,
    fun i hi => State.products_completeSweep first hwf hi (hsegments i hi), fun k hk d hd => ?_, hreg,
    fun hfirst => hfirst ▸ s.zonesSafe_completeSweep, State.rest_of_sweepEnded hrest⟩
  rw [htimers k hk, hd]
  rfl

/-! ### The start of a sweep (R82) -/

section
variable (s : State)

/-- The snapshot and the remaining set of a sweep that starts. -/
def State.sweepBegun : State :=
  { s with
    snapshot := some s.sun
    sweep := { s.sweep with inFlight := true, remaining := s.present, lastVisited := none } }

theorem State.startSweep_of_present (h : s.present ≠ []) : s.startSweep = s.sweepBegun := by
  rw [State.startSweep, if_neg (by simpa using h)]
  rfl

theorem State.startSweep_of_empty (h : s.present = []) : s.startSweep = s.sweepBegun.completeSweep 0 := by
  rw [State.startSweep, if_pos (by simpa using h)]
  rfl

/-- A sweep of an empty table is over as it starts. -/
theorem State.offRecords_startSweep_of_empty (h : s.present = []) :
    { s.startSweep.offRecords with rsg := s.rsg } = s.sweepBegun.sweepEnded.offRecords := by
  rw [State.startSweep_of_empty s h]
  exact s.sweepBegun.offRecords_completeSweep 0

/-- The start of a sweep writes snapshot, sweep, records, generator and events: not the ports, nor the PAU but
FIELD_CLEAR. -/
theorem State.rest_startSweep : s.startSweep.dpt = s.dpt ∧ s.startSweep.ppt = s.ppt ∧ s.startSweep.epoch = s.epoch
    ∧ s.startSweep.pau.supLeft = s.pau.supLeft ∧ s.startSweep.snapshot = some s.sun := by
  by_cases h : s.present = []
  · have hrest := s.offRecords_startSweep_of_empty h
    generalize s.startSweep = t at hrest ⊢
    exact ⟨(congrArg (fun u : State => u.dpt) hrest :), (congrArg (fun u : State => u.ppt) hrest :),
      (congrArg (fun u : State => u.epoch) hrest :), (congrArg (fun u : State => u.pau.supLeft) hrest :),
      (congrArg (fun u : State => u.snapshot) hrest :)⟩
  · rw [State.startSweep_of_present s h]
    exact ⟨rfl, rfl, rfl, rfl, rfl⟩

theorem State.sweep_startSweep_of_empty (h : s.present = []) :
    s.startSweep.sweep = ⟨false, [], none, (s.sweep.count + 1) % 65536⟩ := by
  rw [State.sweep_of_sweepEnded (s.offRecords_startSweep_of_empty h), State.sweepBegun, h]

theorem State.dPending_startSweep_of_empty (h : s.present = []) : s.startSweep.dPending .sweepDone = true := by
  rw [State.startSweep_of_empty s h]
  exact s.sweepBegun.dPending_completeSweep 0

end

/-! ### EPOCH_NOW (R81) -/

/-- What EPOCH_NOW leaves where no sweep is in flight. -/
def EpochStarted (s t : State) : Prop :=
  t.epoch = s.epoch ∧ t.snapshot = some s.sun
    ∧ (s.present ≠ [] → t.sweep = ⟨true, s.present, none, s.sweep.count⟩
        ∧ t.bare = { s with sweep := t.sweep, snapshot := t.snapshot }.bare)
    ∧ (s.present = [] → t.sweep = ⟨false, [], none, (s.sweep.count + 1) % 65536⟩ ∧ t.dPending .sweepDone = true)

theorem epochStarted_startSweep (s : State) (x : Txn) : EpochStarted s (s.setTxn .dispatch x).startSweep := by
  obtain ⟨-, -, hepoch, -, hsnapshot⟩ := (s.setTxn .dispatch x).rest_startSweep
  refine ⟨hepoch, hsnapshot, fun hpresent => ?_, fun hempty =>
    ⟨State.sweep_startSweep_of_empty (s.setTxn .dispatch x) hempty, State.dPending_startSweep_of_empty (s.setTxn .dispatch x) hempty⟩⟩
  rw [State.startSweep_of_present (s.setTxn .dispatch x) hpresent]
  exact ⟨rfl, rfl⟩

/-- Settles O29: a sweep in flight makes the command BUSY, and none lets it start one. -/
theorem epochNow : Obligations.EpochNow := by
  unfold Obligations.EpochNow
  intro s hr
  by_cases hflight : s.sweep.inFlight = true
  · obtain ⟨t, hexec, hdelivered, hepoch, hbare⟩ :=
      exec_acted (c := .epochNow) (w := ⟨.dispatch, _, _⟩) (s := s) rfl hr rfl (f := id)
        (P := fun t => t.epoch = s.epoch ∧ t.bare = s.bare) (fun x => if_pos hflight) (fun u => ⟨rfl, rfl⟩) fun x => ⟨rfl, rfl⟩
    exact ⟨t, hexec, hepoch, fun _ => ⟨hdelivered, hbare⟩, fun h => by rw [hflight] at h; cases h⟩
  · obtain ⟨t, hexec, hdelivered, hepoch, hsnapshot, hpresent, hempty⟩ :=
      exec_acted (c := .epochNow) (w := ⟨.dispatch, _, _⟩) (s := s) rfl hr rfl (f := State.startSweep)
        (P := EpochStarted s) (fun x => if_neg hflight)
        (fun u => ⟨u.rest_startSweep.2.1, u.rest_startSweep.2.2.2.1⟩) (epochStarted_startSweep s)
    exact ⟨t, hexec, hepoch, fun h => absurd h hflight, fun _ => ⟨hdelivered, hsnapshot, hpresent, hempty⟩⟩

/-! ### A sweep of an empty table and the points -/

/-- Nothing is aimed and nothing queued, and the records and points are those of `s`. -/
def Idle (s u : State) : Prop :=
  u.hels = s.hels ∧ u.points = s.points ∧ ∀ z, (u.zone z).joinList = [] ∧ (u.zone z).queue = []

theorem Idle.modZone {s u : State} (h : Idle s u) (z : Nat) (x : ZState) :
    Idle s (u.modZone z fun zn => { zn with state := x }) := by
  obtain ⟨hhels, hpoints, hlists⟩ := h
  refine ⟨hhels, hpoints, fun y => ?_⟩
  rw [State.zone_modZone]
  split
  · exact hlists z
  · exact hlists y

/-- A settlement of a zone with nobody in it writes the zone's state alone. -/
theorem Idle.settle {s u : State} (h : Idle s u) (z : Nat) : Idle s (u.settle z) := by
  obtain ⟨hjoin, hqueue⟩ := h.2.2 z
  by_cases hover : u.overLimit z = true
  · rw [State.settle_of_empty hover hjoin, State.overStep]
    split
    · exact h.modZone z _
    · exact h.modZone z _
  · have hgrant n : grantLoop n z u = (u, false) := by
      cases n with
      | zero => rfl
      | succ n => rw [grantLoop, hqueue]
    rw [State.settle_of_within (by simpa using hover), State.grantStep]
    split
    · exact h.modZone z _
    · split
      · exact h.modZone z _
      · rw [hgrant]
        exact h.modZone z _

theorem Idle.settleAll {s u : State} (h : Idle s u) : Idle s u.settleAll :=
  List.foldlRecOn _ _ h fun _ hu z _ => Idle.settle hu z

/-- With no record present the books list nobody. -/
theorem Books.idle {b : Bool} {s : State} (h : Books b s) (hempty : s.present = []) : Idle s s := by
  have habsent i : (s.hel i).state = .absent := by
    by_contra hne
    have hi := State.mem_present_of_ne hne
    rw [hempty] at hi
    cases hi
  refine ⟨rfl, rfl, fun z => ⟨List.eq_nil_iff_forall_not_mem.2 fun i hi => ?_, List.eq_nil_iff_forall_not_mem.2 fun i hi => ?_⟩⟩
  · cases (habsent i).symm.trans (((h.zone z).join i).1 hi).1
  · cases (habsent i).symm.trans (((h.zone z).queue i).1 hi).1

theorem State.present_congr {s t : State} (h : t.hels = s.hels) : t.present = s.present := by
  rw [State.present, State.present, h]

/-- With nobody aimed, queued or present a completion changes no point. -/
theorem State.points_completeSweep_of_idle {s : State} (h : Idle s s) (hempty : s.present = []) (first : Byte) :
    (s.completeSweep first).points = s.points := by
  have hcommit : Idle s s.sweepEnded.commit := by
    refine ⟨?_, rfl, h.2.2⟩
    change Tab.update Hel.empty _ s.present s.hels = s.hels
    rw [hempty]
    rfl
  obtain ⟨hhels, hpoints, -⟩ := hcommit.settleAll
  have hfinish : s.finishSweep.hels = s.hels ∧ s.finishSweep.points = s.points := by
    rw [State.finishSweep_eq]
    generalize s.sweepEnded.commit.settleAll = u at hhels hpoints ⊢
    obtain ⟨h1, -, h3⟩ := (u.raiseD .sweepDone).tables_startRsg
    exact ⟨h1.trans hhels, h3.trans hpoints⟩
  rw [State.completeSweep_eq, State.accrue_of_present_eq_nil _ _ hempty, State.refreshClear_points,
    State.accrue_of_present_eq_nil _ _ ((State.present_congr hfinish.1).trans hempty), hfinish.2]

end Sys2Proof.Machine
end

section
/-! PROOFS. Expiries and pin reset: EPOCH_EXPIRY (R78, R80), RELEASE_TIMER_EXPIRY (R96), and what pin reset leaves of the tables and units (R198). -/

-- One proof after another: begun all at once, the proofs of the whole text outgrow the check's memory.
set_option Elab.async false

namespace Sys2Proof.Machine

/-! ### EPOCH_EXPIRY -/

/-- The state as an expiry finds it: the time left has passed, and the timer is reloaded. -/
def State.epochReloaded (s : State) : State :=
  { s.elapse s.epoch.countdown with epoch := (s.elapse s.epoch.countdown).epoch.reload }

theorem State.epoch_epochReloaded {s : State} {p : Nat} (hrun : s.epoch.running = true)
    (hp : p = s.epoch.pendingPeriod.getD s.epoch.period) : s.epochReloaded.epoch = ⟨true, p, none, p⟩ := by
  simp [State.epochReloaded, State.elapse, Epoch.elapse, Epoch.reload, hrun, hp]

theorem exec_epochExpiry {s : State} (hrun : s.epoch.running = true) : exec .epochExpiry s =
    .next (if s.sweep.inFlight then s.epochReloaded.raiseD .epochOverrun else s.epochReloaded.startSweep) := by
  rw [show exec .epochExpiry s = execEpochExpiry s from rfl, execEpochExpiry, if_pos hrun]
  rfl

/-- What an expiry leaves of the rest of the part. -/
def ExpiryKept (s t : State) : Prop :=
  t.sun = s.sun ∧ t.link = s.link ∧ t.scu = s.scu ∧ t.dpt = s.dpt ∧ t.ppt = s.ppt ∧ t.dmask = s.dmask ∧ t.pmask = s.pmask
    ∧ t.form = s.form

/-- Settles O30: a sweep in flight stands, and none lets the expiry start one, which is over at once in an empty table. -/
theorem epochExpiry : Obligations.EpochExpiry := by
  unfold Obligations.EpochExpiry
  intro s p hrun hp
  have hepoch := State.epoch_epochReloaded hrun hp
  have hexec := exec_epochExpiry hrun
  by_cases hflight : s.sweep.inFlight = true
  · rw [if_pos hflight] at hexec
    refine ⟨_, hexec, rfl, hepoch, fun _ => ⟨State.dPending_raiseD _ _, rfl, rfl, rfl, rfl, rfl⟩, fun h => ?_, fun h => ?_,
      rfl, rfl, rfl, rfl, rfl, rfl, rfl, rfl⟩
    all_goals
      rw [hflight] at h
      cases h
  · rw [if_neg hflight] at hexec
    refine ⟨_, hexec, ?_⟩
    by_cases hempty : s.present = []
    · have hrest := s.epochReloaded.offRecords_startSweep_of_empty hempty
      have hpoints (hbooks : s.booksOk) : s.epochReloaded.startSweep.points = s.points := by
        have hidle : Idle s.epochReloaded.sweepBegun s.epochReloaded.sweepBegun :=
          ((State.booksOk_iff s).1 hbooks).idle hempty
        rw [State.startSweep_of_empty s.epochReloaded hempty, State.points_completeSweep_of_idle hidle hempty]
        rfl
      obtain ⟨hms, hsun, hsnapshot, hreload, hlink, hscu, hdpt, hppt, hdmask, hpmask, hform⟩ := State.rest_of_sweepEnded hrest
      exact ⟨hms, hreload.trans hepoch, fun h => absurd h hflight, fun _ h => absurd hempty h,
        fun _ _ => ⟨State.sweep_startSweep_of_empty s.epochReloaded hempty, hsnapshot,
          State.dPending_startSweep_of_empty s.epochReloaded hempty, hpoints⟩,
        hsun, hlink, hscu, hdpt, hppt, hdmask, hpmask, hform⟩
    · rw [State.startSweep_of_present s.epochReloaded hempty]
      exact ⟨rfl, hepoch, fun h => absurd h hflight, fun _ _ => ⟨rfl, rfl, rfl, rfl, rfl, rfl⟩, fun _ h => absurd h hempty,
        rfl, rfl, rfl, rfl, rfl, rfl, rfl, rfl⟩

/-! ### RELEASE_TIMER_EXPIRY -/

section
variable {s : State} {k : Nat}

theorem State.release_of_resting (h : (s.seg k).state = .idle ∨ (s.seg k).state = .waiting) :
    s.release k = s.modSeg k Seg.passStart := by
  rcases h with h | h <;> rw [State.release, h]

theorem State.release_of_passing (h : (s.seg k).state = .passing) :
    s.release k = (s.modSeg k fun g => { g with pendingRelease := true }).raiseD .passOverrun := by
  rw [State.release, h]

theorem State.release_of_dead (h : (s.seg k).dead) : s.release k = s := by
  rcases h with h | h <;> rw [State.release, h]

/-- A release starts a pass of a resting segment (R123). -/
theorem State.starts_of_resting (h : (s.seg k).state = .idle ∨ (s.seg k).state = .waiting) :
    ((s.release k).seg k).state = .passing ∧ ((s.release k).seg k).passPos = none ∧ ((s.release k).seg k).answered = 0
      ∧ ((s.release k).seg k).missed = 0 ∧ ((s.release k).seg k).crcErrors = 0 ∧ ((s.release k).seg k).turn = true
      ∧ (s.release k).devents = s.devents := by
  rw [State.release_of_resting h, State.seg_modSeg_same]
  exact ⟨rfl, rfl, rfl, rfl, rfl, rfl, rfl⟩

/-- A release stays pending in a pass in progress (R120). -/
theorem State.overruns_of_passing (h : (s.seg k).state = .passing) : ((s.release k).seg k).state = .passing
    ∧ ((s.release k).seg k).pendingRelease = true ∧ (s.release k).dPending .passOverrun = true := by
  rw [State.release_of_passing h, State.raiseD_seg, State.seg_modSeg_same]
  exact ⟨h, rfl, State.dPending_raiseD _ _⟩

variable (s k)

/-- A release writes its own segment, and neither its urgent queue nor its dialogue. -/
theorem State.seg_release : ((s.release k).seg k).urgent = (s.seg k).urgent ∧ ((s.release k).seg k).frame = (s.seg k).frame
    ∧ ∀ j, j ≠ k → (s.release k).seg j = s.seg j := by
  refine State.release_cases (fun u => (u.seg k).urgent = (s.seg k).urgent ∧ (u.seg k).frame = (s.seg k).frame
    ∧ ∀ j, j ≠ k → u.seg j = s.seg j) (fun _ => ?_) (fun _ => ?_) fun _ => ⟨rfl, rfl, fun _ _ => rfl⟩
  · refine ⟨?_, ?_, fun j hj => by rw [State.seg_modSeg, if_neg hj]⟩ <;> rw [State.seg_modSeg_same] <;> rfl
  · refine ⟨?_, ?_, fun j hj => by rw [State.raiseD_seg, State.seg_modSeg, if_neg hj]⟩ <;>
      rw [State.raiseD_seg, State.seg_modSeg_same]

end

theorem State.rest_of_offRecords {t u : State} (h : t.offRecords = u.offRecords) :
    t.ms = u.ms ∧ t.sweep = u.sweep ∧ t.scu = u.scu ∧ t.link = u.link ∧ t.dpt = u.dpt ∧ t.ppt = u.ppt :=
  ⟨(congrArg (fun v : State => v.ms) h :), (congrArg (fun v : State => v.sweep) h :), (congrArg (fun v : State => v.scu) h :),
    (congrArg (fun v : State => v.link) h :), (congrArg (fun v : State => v.dpt) h :), (congrArg (fun v : State => v.ppt) h :)⟩

theorem State.pevents_release (s : State) (k : Nat) : (s.release k).pevents = s.pevents :=
  State.release_cases (fun u => u.pevents = s.pevents) (fun _ => rfl) (fun _ => rfl) fun _ => rfl

/-- The state in which a release that fell due is handed over. -/
def State.releaseDue (s : State) (k d : Nat) : State := (s.elapse d).setTimer k none

theorem State.seg_releaseDue (s : State) (k d : Nat) {j : Nat} (hj : j < 8) : (s.releaseDue k d).seg j = (s.seg j).elapse d := by
  rw [State.releaseDue, State.setTimer_seg, State.seg_elapse s d hj]

theorem State.timer_releaseDue (s : State) (k d : Nat) {j : Nat} (hj : j < 8) :
    (s.releaseDue k d).timer j = if j = k then none else (s.timer j).map (· - d) := by
  rw [State.releaseDue, State.timer_setTimer, State.timer_elapse s d hj]

/-- Settles O32: the release acts by the state of its segment, which the time that passed has not changed. -/
theorem releaseTimerExpiry : Obligations.ReleaseTimerExpiry := by
  unfold Obligations.ReleaseTimerExpiry
  intro s k d g hd hg
  have hexec : exec (.releaseTimerExpiry k) s = .next ((s.releaseDue k d).release k) := by
    rw [show exec (.releaseTimerExpiry k) s = execReleaseTimerExpiry k s from rfl, execReleaseTimerExpiry, hd, State.releaseDue]
  have hseg : (s.releaseDue k d).seg k = g.elapse d := by rw [State.seg_releaseDue _ _ _ k.isLt, hg]
  have hstate : ((s.releaseDue k d).seg k).state = g.state := by rw [hseg]; rfl
  have hrest := (s.releaseDue k d).offRecords_release k
  obtain ⟨hhels, hzones, hpoints⟩ := (s.releaseDue k d).tables_release k
  obtain ⟨hurgent, hframe, hothers⟩ := (s.releaseDue k d).seg_release k
  have htimer (j : Nat) (hj : j < 8) : ((s.releaseDue k d).release k).timer j = if j = k.val then none else (s.timer j).map (· - d) :=
    (State.timer_congr (State.rsg_of_offRecords hrest) j).trans (s.timer_releaseDue k d hj)
  obtain ⟨hms, hsweep, hscu, hlink, hdpt, hppt⟩ := State.rest_of_offRecords hrest
  refine ⟨_, hexec, hms, (htimer k k.isLt).trans (if_pos rfl),
    fun j hj => (htimer j j.isLt).trans (if_neg fun h => hj (Fin.ext h)), fun hresting => ?_, fun hpassing => ?_, fun hdead => ?_,
    hurgent.trans (by rw [hseg]; rfl), hframe.trans (by rw [hseg]; rfl), fun j hj => ?_, hhels, hzones, hpoints,
    hsweep, hscu, hlink, State.pevents_release _ _, hdpt, hppt⟩
  · exact State.starts_of_resting (by rwa [hstate])
  · exact State.overruns_of_passing (by rwa [hstate])
  · rw [State.release_of_dead (by rwa [Seg.dead, hstate]), hseg]
    exact ⟨rfl, rfl, rfl⟩
  · rw [hothers j fun h => hj (Fin.ext h), State.seg_releaseDue _ _ _ j.isLt]
    rfl

/-! ### Pin reset -/

/-- Settles O4: pin reset leaves the reset state, with what each segment still sends. -/
theorem pinResetUnits : Obligations.PinResetUnits := by
  unfold Obligations.PinResetUnits
  intro s
  have hseg k := State.seg_pinReset (s := s) (t := _) rfl k
  refine ⟨_, rfl, rfl, fun _ => rfl, fun _ => rfl, fun _ => rfl, fun k => ?_, fun k => ?_, rfl, rfl, rfl, rfl, rfl, rfl, rfl,
    rfl, rfl, fun _ => rfl, rfl, fun _ => rfl, fun _ => rfl, rfl, rfl, rfl, rfl, rfl, rfl, rfl, rfl, rfl, rfl, rfl, rfl⟩
  · rw [hseg]
  · refine .of_cutOff ?_ ?_
    · rw [hseg]
      rfl
    · rw [hseg, if_pos k.isLt]

end Sys2Proof.Machine
end

section
/-! PROOFS. The aim solution (R7 to R13), the current target (R29) and the visit of a sweep (R83, R84). -/

-- One proof after another: begun all at once, the proofs of the whole text outgrow the check's memory.
set_option Elab.async false

namespace Sys2Proof.Machine

/-! ### The integer square root -/

/-- Each bit keeps the square of the root found so far at most `n`, and the square of what the lower bits can still add to
it above `n`. -/
theorem isqrtBits_bounds (k : Nat) {n r : Nat} (hle : r * r ≤ n) (hlt : n < (r + 2 ^ k) * (r + 2 ^ k)) :
    isqrtBits k n r * isqrtBits k n r ≤ n ∧ n < (isqrtBits k n r + 1) * (isqrtBits k n r + 1) := by
  induction k generalizing r with
  | zero => exact ⟨hle, hlt⟩
  | succ k ih =>
    rw [isqrtBits]
    split
    next hbit =>
      refine ih hbit ?_
      rwa [Nat.add_assoc, ← Nat.two_mul, ← Nat.pow_succ']
    next hbit => exact ih hle (Nat.lt_of_not_le hbit)

theorem isqrt_bounds (n : Nat) : isqrt n * isqrt n ≤ n ∧ n < (isqrt n + 1) * (isqrt n + 1) := by
  refine isqrtBits_bounds _ (Nat.zero_le n) ?_
  rw [Nat.zero_add, ← Nat.pow_add]
  exact Nat.lt_log2_self.trans_le (Nat.pow_le_pow_right (by decide) (by omega))

/-! ### The stages of the solve -/

theorem Vec3.isLength_length (v : Vec3) : IsLength v v.length := by
  obtain ⟨hle, hlt⟩ := isqrt_bounds (v.x.natAbs * v.x.natAbs + v.y.natAbs * v.y.natAbs + v.z.natAbs * v.z.natAbs)
  have hsum : v.x * v.x + v.y * v.y + v.z * v.z =
      ((v.x.natAbs * v.x.natAbs + v.y.natAbs * v.y.natAbs + v.z.natAbs * v.z.natAbs : Nat) : Int) := by
    push_cast
    simp only [abs_mul_abs_self]
  rw [IsLength, hsum]
  exact ⟨by exact_mod_cast hle, by exact_mod_cast hlt⟩

theorem isUnit_unitComponent {len : Nat} (hlen : 0 < len) (d : Int) : IsUnit len d (unitComponent len d) := by
  have hpos : 0 < 2 * len := by omega
  have hdiv := Nat.div_add_mod (2 * (d.natAbs * 32768) + len) (2 * len)
  have hmod := Nat.mod_lt (2 * (d.natAbs * 32768) + len) hpos
  refine ⟨(2 * (d.natAbs * 32768) + len) / (2 * len), ?_, ?_, ?_⟩
  · omega
  · rw [Nat.mul_add]
    omega
  · have hmin : min ((2 * (d.natAbs * 32768) + len) / (2 * len)) 32767 =
        if (2 * (d.natAbs * 32768) + len) / (2 * len) < 32767 then (2 * (d.natAbs * 32768) + len) / (2 * len) else 32767 := by
      split <;> omega
    rw [unitComponent, hmin]

theorem Vec3.isUnitVector_unit {len : Nat} (hlen : 0 < len) (v : Vec3) : IsUnitVector len v (v.unit len) :=
  ⟨isUnit_unitComponent hlen v.x, isUnit_unitComponent hlen v.y, isUnit_unitComponent hlen v.z⟩

theorem contribution_eq (u : Sun) (h : Hel) (len m : Nat) :
    contribution h.area u.usedDni h.refl (cosineFactor m) (attenuation len u.atc) = contributionOf u h len m := by
  have hcosine : min m 65535 = if m ≤ 65535 then m else 65535 := by split <;> omega
  have hloss : 65536 - len * u.atc / 10000 =
      if 65536 < len * u.atc / 10000 then 0 else 65536 - len * u.atc / 10000 := by split <;> omega
  rw [contribution, contributionOf, cosineFactor, attenuation, Sun.usedDni, hcosine, ← hloss]

/-- A computation toward a point with a sun in the snapshot goes through the stages in turn. -/
theorem aimSolution_solveToward {u : Sun} (h : Hel) (a : Vec3) (hu : u.present = true) :
    AimSolution u h a (solveToward (some u) h (some a)) := by
  have hsolve : solveToward (some u) h (some a) =
      if (a.sub h.pos).length < 1000 then .geometry
      else if (u.s.add ((a.sub h.pos).unit (a.sub h.pos).length)).length < 2048 then .noSolution
      else .found ((u.s.add ((a.sub h.pos).unit (a.sub h.pos).length)).unit
          (u.s.add ((a.sub h.pos).unit (a.sub h.pos).length)).length)
        (contribution h.area u.usedDni h.refl (cosineFactor (u.s.add ((a.sub h.pos).unit (a.sub h.pos).length)).length)
          (attenuation (a.sub h.pos).length u.atc)) := if_pos hu
  rw [hsolve]
  refine ⟨_, Vec3.isLength_length _, fun hshort => if_pos hshort, fun hlong => ⟨_, Vec3.isUnitVector_unit (by omega) _,
    _, Vec3.isLength_length _, fun hflat => ?_, fun hbisector => ⟨_, Vec3.isUnitVector_unit (by omega) _, ?_⟩⟩⟩
  · rw [if_neg hlong.not_gt, if_pos hflat]
  · rw [if_neg hlong.not_gt, if_neg hbisector.not_gt, contribution_eq]

theorem solveToward_unlit {snap : Option Sun} (h : Hel) {aim : Option Vec3}
    (hunlit : aim = none ∨ ∀ u, snap = some u → u.present = false) : solveToward snap h aim = .unlit := by
  cases snap with
  | none => rfl
  | some u =>
    cases aim with
    | none => rfl
    | some a =>
      rcases hunlit with hnone | hdark
      · cases hnone
      · exact if_neg (by simp [hdark u rfl])

/-! ### The current target (R29) -/

section
variable {s : State} {h : Hel}

theorem State.currentTarget_of_stow (hstow : s.pau.asserted = true ∨ s.pau.stowCommand = true) : s.currentTarget h = .stow :=
  if_pos (by simpa [State.stowInEffect] using hstow)

theorem State.currentTarget_of_clear (hline : s.pau.asserted = false) (hcommand : s.pau.stowCommand = false) :
    s.currentTarget h = match h.state with
      | .onTarget => targetOf (s.aimedPoint h)
      | .queued | .standby | .offline => s.standbyTarget h
      | .stowed | .excluded | .faulted | .absent => .stow :=
  if_neg (by simp [State.stowInEffect, hline, hcommand])

theorem State.standbyTarget_of_assigned {p : Nat} (hp : h.assignment = some p) :
    (∀ q, (s.zone (s.point p).zone).standby = some q → (s.point q).valid = true → s.standbyTarget h = .point q)
      ∧ ((∀ q, (s.zone (s.point p).zone).standby = some q → (s.point q).valid = false) → s.standbyTarget h = .stow) := by
  simp only [State.standbyTarget, hp]
  cases hstandby : (s.zone (s.point p).zone).standby with
  | none => exact ⟨fun q hq => (by cases hq), fun _ => rfl⟩
  | some q =>
    refine ⟨fun r hr hvalid => ?_, fun hnone => ?_⟩
    · cases hr
      exact if_pos hvalid
    · exact if_neg (by simp [hnone q rfl])

end

/-- Settles O36: the root bit by bit, the stages in their order, and the branches of the current target. -/
theorem squareRoot : Obligations.SquareRoot := by
  unfold Obligations.SquareRoot
  refine ⟨isqrt_bounds, fun u h a hu => aimSolution_solveToward h a hu, fun snap h aim => solveToward_unlit h,
    fun s h _ => ⟨State.currentTarget_of_stow, fun hline hcommand => ⟨fun p haimed hp => ⟨fun hprimary => ?_, fun q halt hq => ?_⟩,
      fun p hwaiting hp => ?_, fun hoff => ?_⟩⟩⟩
  · rw [State.currentTarget_of_clear hline hcommand, haimed]
    simp [State.aimedPoint, hprimary, hp, targetOf]
  · rw [State.currentTarget_of_clear hline hcommand, haimed]
    simp [State.aimedPoint, State.alternateOf, halt, hp, hq, targetOf]
  · have htarget : s.currentTarget h = s.standbyTarget h := by
      rw [State.currentTarget_of_clear hline hcommand]
      rcases hwaiting with hs | hs | hs <;> rw [hs]
    rw [htarget]
    exact State.standbyTarget_of_assigned hp
  · rw [State.currentTarget_of_clear hline hcommand]
    rcases hoff with hs | hs | hs | ⟨hs, hnone⟩
    · rw [hs]
    · rw [hs]
    · rw [hs]
    · simp [hs, State.standbyTarget, hnone]

/-! ### A visit -/

section
variable (s : State) (h : Hel)

theorem State.compute_eq (t : Target) : s.compute h t = solveToward s.snapshot h (s.targetPos t) := rfl

theorem State.budgetPoint_eq : s.budgetPoint h = if h.state = .onTarget then s.aimedPoint h else h.assignment := by
  cases hs : h.state <;> simp [State.budgetPoint, hs]

/-- The contribution of a visit is that of a computation toward the budget point (R84). -/
theorem State.budgetProduct_eq : s.budgetProduct h (s.compute h (s.currentTarget h)) =
    solveToward s.snapshot h ((s.budgetPoint h).map fun b => (s.point b).pos) := by
  rw [State.budgetProduct]
  cases s.budgetPoint h with
  | none => exact (solveToward_unlit h (.inl rfl)).symm
  | some b =>
    dsimp only
    split
    next htarget => rw [htarget]; rfl
    next => rfl

/-- The record a visit leaves, from its two computations. -/
def Hel.visitedWith (h : Hel) (t : Target) (normal flux : Solved) : Hel :=
  { (h.writeNormal t normal).writeContribution flux with
      geometry := normal == .geometry || flux == .geometry
      noSolution := normal == .noSolution || flux == .noSolution
      mark := true }

theorem State.visited_eq : s.visited h = h.visitedWith (s.currentTarget h) (solveToward s.snapshot h (s.targetPos (s.currentTarget h)))
    (solveToward s.snapshot h ((s.budgetPoint h).map fun b => (s.point b).pos)) := by
  rw [← s.budgetProduct_eq h]
  rfl

end

/-- What the two computations write, by how each of them ends. -/
theorem Hel.visitedWith_fields (h : Hel) (t : Target) (normal flux : Solved) :
    (h.visitedWith t normal flux).tag = ⟨t, true⟩ ∧ (h.visitedWith t normal flux).mark = true
      ∧ (normal = .unlit → (h.visitedWith t normal flux).nCmd = ⟨0, 0, 32767⟩)
      ∧ (normal = .geometry ∨ normal = .noSolution → (h.visitedWith t normal flux).nCmd = h.nCmd)
      ∧ (∀ v p, normal = .found v p → (h.visitedWith t normal flux).nCmd = v)
      ∧ (flux = .unlit ∨ flux = .geometry →
          (h.visitedWith t normal flux).pNew = 0 ∧ (h.visitedWith t normal flux).pNewValid = false)
      ∧ (flux = .noSolution → (h.visitedWith t normal flux).pNew = 0 ∧ (h.visitedWith t normal flux).pNewValid = true)
      ∧ (∀ v p, flux = .found v p → (h.visitedWith t normal flux).pNew = p ∧ (h.visitedWith t normal flux).pNewValid = true)
      ∧ ((h.visitedWith t normal flux).geometry = true ↔ normal = .geometry ∨ flux = .geometry)
      ∧ ((h.visitedWith t normal flux).noSolution = true ↔ normal = .noSolution ∨ flux = .noSolution)
      ∧ { h.visitedWith t normal flux with nCmd := h.nCmd, tag := h.tag, mark := h.mark, pNew := h.pNew,
                                           pNewValid := h.pNewValid, geometry := h.geometry,
                                           noSolution := h.noSolution } = h := by
  cases normal <;> cases flux <;> simp [Hel.visitedWith, Hel.writeNormal, Hel.writeContribution, stowNormal]

/-- Settles O33: the visit of the lowest index left writes `Hel.visitedWith` of its two computations. -/
theorem sweepVisit : Obligations.SweepVisit := by
  unfold Obligations.SweepVisit
  rintro s i rest h budget normal flux hflight hfree hnone hremaining rfl hbudget hnormal hflux
  have hexec : exec .sweepVisit s = .next (s.visit i rest) := by
    rw [show exec .sweepVisit s = execSweepVisit s from rfl, execSweepVisit, hflight, hfree, hnone, hremaining]
    rfl
  have hrecord : (s.visit i rest).hel i = (s.hel i).visitedWith (s.currentTarget (s.hel i)) normal flux := by
    have hvisited : s.visited (s.hel i) = (s.hel i).visitedWith (s.currentTarget (s.hel i)) normal flux := by
      rw [State.visited_eq, hnormal, hflux, hbudget, State.budgetPoint_eq]
    exact (s.hel_modHel_same i s.visited).trans hvisited
  obtain ⟨htag, hmark, hdark, hheld, hfound, hnoflux, hzero, hcontribution, hgeometry, hnosolution, hkept⟩ :=
    (s.hel i).visitedWith_fields (s.currentTarget (s.hel i)) normal flux
  refine ⟨_, hexec, rfl, ?_⟩
  rw [hrecord]
  refine ⟨htag, hmark, fun hcase => hdark ?_, hheld, hfound, fun hcase => hnoflux ?_, hzero, hcontribution, hgeometry, hnosolution,
    hkept, fun j hj => (s.hel_modHel i j s.visited).trans (if_neg hj), rfl⟩
  · rw [hnormal]
    exact solveToward_unlit _ (hcase.imp_left fun hstow => by rw [hstow]; rfl)
  · rcases hcase with hb | hdarkness | hg
    · exact .inl (by rw [hflux, hb]; exact solveToward_unlit _ (.inl rfl))
    · exact .inl (by rw [hflux]; exact solveToward_unlit _ (.inr hdarkness))
    · exact .inr hg

end Sys2Proof.Machine
end

section
/-! PROOFS. On-demand solves (R89 to R92, R99): the request the arbiter takes, its record's write, and its answer. -/

-- One proof after another: begun all at once, the proofs of the whole text outgrow the check's memory.
set_option Elab.async false

namespace Sys2Proof.Machine

/-! ### The frame fixed for a current target -/

section
variable {s t : State} {h g : Hel}

theorem State.currentTarget_congr (hstate : g.state = h.state) (hassignment : g.assignment = h.assignment)
    (honAlternate : g.onAlternate = h.onAlternate) : s.currentTarget g = s.currentTarget h := by
  simp only [State.currentTarget, State.standbyTarget, State.aimedPoint, State.alternateOf, hstate, hassignment, honAlternate]

theorem Tag.matches_iff (x : Tag) (c : Target) : x.matches c = true ↔ x = ⟨c, true⟩ := by
  obtain ⟨target, valid⟩ := x
  simp [Tag.matches, and_comm]

theorem State.fixedFrame_trackFrame (s : State) (k i : Nat) (o : Origin) :
    s.FixedFrame k i o (s.hel i) (s.trackFrame k i o) :=
  ⟨rfl, rfl, rfl, rfl, rfl, rfl, rfl, rfl, fun hstow => by simp [State.trackFrame, hstow], fun htrack => by
    simp [State.trackFrame, htrack]⟩

theorem State.FixedFrame.congr {k i : Nat} {o : Origin} {f : Frame} (hf : s.FixedFrame k i o g f) (hdrop : h.drop = g.drop)
    (hseq : h.seq = g.seq) (htarget : t.currentTarget h = s.currentTarget g) (hrate : (t.seg k).rate = (s.seg k).rate)
    (hnormal : h.nCmd = g.nCmd) : t.FixedFrame k i o h f := by
  rw [State.FixedFrame, hdrop, hseq, htarget, hrate, hnormal]
  exact hf

end

/-- What is left of a segment's dialogue when its frame and its babble watch are left out. -/
def Seg.offFrame (g : Seg) : Seg := { g with frame := none, activeUs := none }

/-- A frame fixed writes the segment's dialogue and the record's seq. -/
theorem State.fixFrame_fields (s : State) (k i : Nat) (f : Frame) :
    ((s.fixFrame k i f).seg k).frame = some f ∧ ((s.fixFrame k i f).seg k).offFrame = (s.seg k).offFrame
      ∧ (∀ n, n ≠ k → (s.fixFrame k i f).seg n = s.seg n) ∧ (s.fixFrame k i f).hel i = { s.hel i with seq := f.seq }
      ∧ (∀ n, n ≠ i → (s.fixFrame k i f).hel n = s.hel n)
      ∧ { s.fixFrame k i f with hels := s.hels, segs := s.segs } = s := by
  have hseg n : (s.fixFrame k i f).seg n = if n = k then { s.seg k with frame := some f, activeUs := none } else s.seg n :=
    s.seg_modSeg k n fun g => { g with frame := some f, activeUs := none }
  refine ⟨?_, ?_, fun n hn => (hseg n).trans (if_neg hn), State.hel_modHel_same _ _ _,
    fun n hn => (State.hel_modHel _ _ _ _).trans (if_neg hn), rfl⟩
  · rw [hseg, if_pos rfl]
  · rw [hseg, if_pos rfl]
    rfl

/-! ### The answer -/

/-- What an answer that is waited for leaves of a state, for the frame `f` of segment `k` to heliostat `i` (R90, R92, R99);
`gone` where the record was absent. -/
structure Answered (s t : State) (k i : Nat) (f : Frame) (gone : Bool) : Prop where
  out : t.solveOut = none
  emptied : gone = true ∨ (s.hel i).state = .absent ∨ (s.hel i).state = .excluded ∨ (s.hel i).segment ≠ k
    ∨ (s.hel i).drop ≠ f.askedDrop → (t.seg k).frame = none ∧ t.hels = s.hels
  fixed : gone = false → (s.hel i).state ≠ .absent → (s.hel i).state ≠ .excluded → (s.hel i).segment = k →
    (s.hel i).drop = f.askedDrop → (s.hel i).tag = ⟨s.currentTarget (s.hel i), true⟩ →
    t.hel i = { s.hel i with seq := ((s.hel i).seq + 1) % 16 }
      ∧ ∃ g, (t.seg k).frame = some g ∧ s.FixedFrame k i f.origin (s.hel i) g
  asked : gone = false → (s.hel i).state ≠ .absent → (s.hel i).state ≠ .excluded → (s.hel i).segment = k →
    (s.hel i).drop = f.askedDrop → (s.hel i).tag ≠ ⟨s.currentTarget (s.hel i), true⟩ →
    t.hels = s.hels ∧ (t.seg k).frame = some { f with taken := false }
  others : ∀ n, n ≠ i → t.hel n = s.hel n
  seg : (t.seg k).offFrame = (s.seg k).offFrame
  segs : ∀ n, n ≠ k → t.seg n = s.seg n
  rest : { t with hels := s.hels, segs := s.segs, solveOut := s.solveOut } = s

/-- An answer that rewrites the frame of its segment and no record. -/
theorem Answered.of_modSeg {s : State} {k i : Nat} {f : Frame} {gone : Bool} {x : Option Frame}
    (hempty : gone = true ∨ (s.hel i).state = .absent ∨ (s.hel i).state = .excluded ∨ (s.hel i).segment ≠ k
      ∨ (s.hel i).drop ≠ f.askedDrop → x = none)
    (hask : gone = false → (s.hel i).state ≠ .absent → (s.hel i).state ≠ .excluded → (s.hel i).segment = k →
      (s.hel i).drop = f.askedDrop →
      (s.hel i).tag ≠ ⟨s.currentTarget (s.hel i), true⟩ ∧ x = some { f with taken := false }) :
    Answered s (State.modSeg { s with solveOut := none } k fun g => { g with frame := x }) k i f gone := by
  have hseg n : (State.modSeg { s with solveOut := none } k fun g => { g with frame := x }).seg n =
      if n = k then { s.seg k with frame := x } else s.seg n := State.seg_modSeg _ k n fun g => { g with frame := x }
  refine ⟨rfl, fun h => ⟨?_, rfl⟩, fun h1 h2 h3 h4 h5 h6 => absurd h6 (hask h1 h2 h3 h4 h5).1,
    fun h1 h2 h3 h4 h5 _ => ⟨rfl, ?_⟩, fun _ _ => rfl, ?_, fun n hn => (hseg n).trans (if_neg hn), rfl⟩
  · rw [hseg, if_pos rfl]
    exact hempty h
  · rw [hseg, if_pos rfl]
    exact (hask h1 h2 h3 h4 h5).2
  · rw [hseg, if_pos rfl]
    rfl

theorem answered_handAnswer {s : State} {o : SolveOut} {f : Frame} {i : Nat} (hf : (s.seg o.segment).frame = some f)
    (hphase : f.phase = .solving) (htaken : f.taken = true) (hi : f.heliostat = some i) :
    Answered s (s.handAnswer o) o.segment i f o.absent := by
  rw [State.handAnswer_waited hf hphase htaken]
  by_cases hgone : o.absent = true
  · rw [if_pos hgone]
    exact .of_modSeg (fun _ => rfl) fun h => by rw [hgone] at h; cases h
  · rw [if_neg hgone, State.answerSolve_eq hi]
    split
    next hcond =>
      refine .of_modSeg (fun _ => rfl) fun _ h2 h3 h4 h5 => ?_
      rcases hcond with h | h | h | h
      · exact absurd h h2
      · exact absurd h4 h
      · exact absurd h5 h
      · exact absurd h h3
    next hcond =>
      have hnone : ¬ (o.absent = true ∨ (s.hel i).state = .absent ∨ (s.hel i).state = .excluded
          ∨ (s.hel i).segment ≠ o.segment ∨ (s.hel i).drop ≠ f.askedDrop) := by
        rintro (h | h | h | h | h)
        exacts [hgone h, hcond (.inl h), hcond (.inr (.inr (.inr h))), hcond (.inr (.inl h)), hcond (.inr (.inr (.inl h)))]
      split
      next hmatch =>
        obtain ⟨hframe, hseg, hsegs, hhel, hothers, hrest⟩ := State.fixFrame_fields { s with solveOut := none } o.segment i
          (State.trackFrame { s with solveOut := none } o.segment i f.origin)
        exact ⟨(congrArg (fun u : State => u.solveOut) hrest :), fun h => absurd h hnone,
          fun _ _ _ _ _ _ => ⟨hhel, _, hframe, State.fixedFrame_trackFrame { s with solveOut := none } o.segment i f.origin⟩,
          fun _ _ _ _ _ hne => absurd ((Tag.matches_iff _ _).1 hmatch) hne, hothers, hseg, hsegs,
          (congrArg (fun u : State => ({ u with solveOut := s.solveOut } : State)) hrest :)⟩
      next hmatch =>
        exact .of_modSeg (fun h => absurd h hnone) fun _ _ _ _ _ =>
          ⟨fun h => hmatch ((Tag.matches_iff _ _).2 h), rfl⟩

/-! ### The request -/

/-- The arbiter's next request is the first one pending after the last segment served (R91). -/
theorem State.nextSolve_eq {s : State} {j : Nat} (hj : j < 8) (hsolving : s.solving ((s.lastServed + 1 + j) % 8) = true)
    (hbefore : ∀ l < j, s.solving ((s.lastServed + 1 + l) % 8) = false) : s.nextSolve = some ((s.lastServed + 1 + j) % 8) := by
  have hfirst : (List.range 8).find? (s.solving ∘ fun l => (s.lastServed + 1 + l) % 8) = some j :=
    List.find?_range_eq_some.2 ⟨hsolving, List.mem_range.2 hj, fun l hl => by simp [hbefore l hl]⟩
  rw [State.nextSolve, List.find?_map, hfirst]
  rfl

/-- A pending request is a SOLVING frame whose request is not taken. -/
theorem State.solving_iff {s : State} {k : Nat} {f : Frame} (hf : (s.seg k).frame = some f) :
    s.solving k = true ↔ f.phase = .solving ∧ f.taken = false := by
  simp [State.solving, hf]

/-- The command normal after a computation that ends so, where it was `old` (R16). -/
def Solved.normalOver (old : Vec3) : Solved → Vec3
  | .unlit => ⟨0, 0, 32767⟩
  | .found v _ => v
  | .geometry | .noSolution => old

/-- What an on-demand solve makes of a record, by how the computation ends. -/
theorem State.solved_fields (s : State) (h : Hel) (r : Solved) (hr : r = s.compute h (s.currentTarget h)) :
    (s.solved h).tag = ⟨s.currentTarget h, true⟩
      ∧ (s.solved h).nCmd = r.normalOver h.nCmd
      ∧ (s.solved h).geometry = (h.geometry || r == .geometry) ∧ (s.solved h).noSolution = (h.noSolution || r == .noSolution)
      ∧ { s.solved h with tag := h.tag, nCmd := h.nCmd, geometry := h.geometry, noSolution := h.noSolution } = h := by
  have hsolved : s.solved h = { h.writeNormal (s.currentTarget h) r with
      geometry := h.geometry || r == .geometry
      noSolution := h.noSolution || r == .noSolution } := by rw [hr]; rfl
  rw [hsolved]
  cases r <;> exact ⟨rfl, rfl, rfl, rfl, rfl⟩

section
variable {s : State} {k i : Nat} {f : Frame} (hf : (s.seg k).frame = some f) (hi : f.heliostat = some i)
include hf hi

theorem State.hels_takeSolve (habsent : (s.hel i).state = .absent) : (s.takeSolve k).hels = s.hels := by
  rw [State.takeSolve_eq hf hi, State.solveRecord_eq hi, if_pos habsent]
  rfl

theorem State.hel_takeSolve (hpresent : (s.hel i).state ≠ .absent) (n : Nat) :
    (s.takeSolve k).hel n = if n = i then s.solved (s.hel i) else s.hel n := by
  rw [State.takeSolve_eq hf hi, State.solveRecord_eq hi, if_neg hpresent]
  exact s.hel_modHel i n s.solved

theorem State.seg_takeSolve (n : Nat) :
    (s.takeSolve k).seg n = if n = k then { s.seg k with frame := some { f with taken := true } } else s.seg n := by
  have hsegs : (s.solveRecord f).segs = s.segs := by
    rw [State.solveRecord_eq hi]
    split <;> rfl
  have hseg n : (s.solveRecord f).seg n = s.seg n := State.seg_congr hsegs n
  rw [State.takeSolve_eq hf hi, ← hseg n, ← hseg k]
  exact State.seg_modSeg (s.solveRecord f) k n fun g => { g with frame := some { f with taken := true } }

theorem State.rest_takeSolve :
    { s.takeSolve k with hels := s.hels, segs := s.segs, lastServed := s.lastServed, solveOut := s.solveOut } = s := by
  rw [State.takeSolve_eq hf hi, State.solveRecord_eq hi]
  split <;> rfl

end

/-! ### SOLVE -/

theorem exec_solve_of_out {s : State} {o : SolveOut} (ho : s.solveOut = some o) : exec .solve s = .next (s.handAnswer o) := by
  rw [show exec .solve s = execSolve s from rfl, execSolve, ho, State.handOver, ho]

theorem exec_solveBegun_of_out {s : State} {o : SolveOut} (ho : s.solveOut = some o) : exec .solveBegun s = .next s := by
  rw [show exec .solveBegun s = execSolveBegun s from rfl, execSolveBegun, ho]

theorem exec_solve_of_next {s : State} {k : Nat} (ho : s.solveOut = none) (hnext : s.nextSolve = some k) :
    exec .solve s = .next (s.takeSolve k).handOver := by
  rw [show exec .solve s = execSolve s from rfl, execSolve, ho, hnext]

theorem exec_solveBegun_of_next {s : State} {k : Nat} (ho : s.solveOut = none) (hnext : s.nextSolve = some k) :
    exec .solveBegun s = .next (s.takeSolve k) := by
  rw [show exec .solveBegun s = execSolveBegun s from rfl, execSolveBegun, ho, hnext]

/-- What an answer can write, whether it is waited for or discarded. -/
theorem State.handAnswer_scope (s : State) (o : SolveOut) : (s.handAnswer o).solveOut = none
    ∧ (∀ n, n ≠ o.segment → (s.handAnswer o).seg n = s.seg n)
    ∧ { s.handAnswer o with hels := s.hels, segs := s.segs, solveOut := s.solveOut } = s := by
  by_cases hwaited : ∃ f, (s.seg o.segment).frame = some f ∧ f.phase = .solving ∧ f.taken = true
  · obtain ⟨f, hf, hphase, htaken⟩ := hwaited
    cases hi : f.heliostat with
    | some i =>
      have h := answered_handAnswer hf hphase htaken hi
      exact ⟨h.out, h.segs, h.rest⟩
    | none =>
      have hempty : s.handAnswer o = State.emptyFrame { s with solveOut := none } o.segment := by
        rw [State.handAnswer_waited hf hphase htaken, State.answerSolve, hi]
        split <;> rfl
      rw [hempty]
      exact ⟨rfl, fun n hn => (State.seg_modSeg _ _ _ _).trans (if_neg hn), rfl⟩
  · rw [State.handAnswer_discard fun f hf => ?_]
    · exact ⟨rfl, fun _ _ => rfl, rfl⟩
    · by_contra hno
      obtain ⟨hphase, htaken⟩ := not_or.1 hno
      exact hwaited ⟨f, hf, not_not.1 hphase, by simpa using htaken⟩

/-- An answer that is fixed into a frame writes the record's seq; every other one leaves the records. -/
theorem Answered.frame {s t : State} {k i : Nat} {f : Frame} {gone : Bool} (a : Answered s t k i f gone) :
    (gone = true ∨ (s.hel i).state = .absent ∨ (s.hel i).state = .excluded ∨ (s.hel i).segment ≠ k
        ∨ (s.hel i).drop ≠ f.askedDrop → (t.seg k).frame = none ∧ t.hels = s.hels)
      ∧ (gone = false → (s.hel i).state ≠ .absent → (s.hel i).state ≠ .excluded → (s.hel i).segment = k →
          (s.hel i).drop = f.askedDrop →
          ((s.hel i).tag = ⟨s.currentTarget (s.hel i), true⟩ → t.hel i = { s.hel i with seq := ((s.hel i).seq + 1) % 16 }
            ∧ (∀ n, n ≠ i → t.hel n = s.hel n)
            ∧ ∃ g, (t.seg k).frame = some g ∧ s.FixedFrame k i f.origin (s.hel i) g)
          ∧ ((s.hel i).tag ≠ ⟨s.currentTarget (s.hel i), true⟩ → t.hels = s.hels
            ∧ (t.seg k).frame = some { f with taken := false })) :=
  ⟨a.emptied, fun h1 h2 h3 h4 h5 => ⟨fun htag =>
    have ⟨hhel, hframe⟩ := a.fixed h1 h2 h3 h4 h5 htag
    ⟨hhel, a.others, hframe⟩, a.asked h1 h2 h3 h4 h5⟩⟩

/-! ### A request taken -/

/-- A request taken by SOLVE is answered at once: the record just computed matches its current target. -/
theorem answered_takeSolve {s : State} {k i : Nat} {f : Frame} (hf : (s.seg k).frame = some f) (hphase : f.phase = .solving)
    (hi : f.heliostat = some i) :
    Answered (s.takeSolve k) (s.takeSolve k).handOver k i { f with taken := true } ((s.hel i).state == .absent) := by
  have hframe : ((s.takeSolve k).seg k).frame = some { f with taken := true } := by
    rw [State.seg_takeSolve hf hi, if_pos rfl]
  rw [State.handOver_takeSolve hf hi]
  exact answered_handAnswer (o := ⟨k, (s.hel i).state == .absent⟩) hframe hphase rfl hi

theorem State.currentTarget_takeSolve {s : State} {k i : Nat} {f : Frame} (hf : (s.seg k).frame = some f)
    (hi : f.heliostat = some i) (h : Hel) : (s.takeSolve k).currentTarget h = s.currentTarget h := by
  have hrest := State.rest_takeSolve hf hi
  generalize s.takeSolve k = u at hrest
  exact (congrArg (fun v : State => v.currentTarget h) hrest :)

/-- The record of a request taken and answered, but for its seq. -/
theorem State.solved_currentTarget (s : State) (h : Hel) : s.currentTarget (s.solved h) = s.currentTarget h := by
  obtain ⟨-, -, -, -, hkept⟩ := s.solved_fields h _ rfl
  exact State.currentTarget_congr (congrArg (fun g : Hel => g.state) hkept :) (congrArg (fun g : Hel => g.assignment) hkept :)
    (congrArg (fun g : Hel => g.onAlternate) hkept :)

/-- What stands in a record that a solve computed, whatever its seq has become. -/
theorem State.solved_record {s : State} {h g : Hel} {r : Solved} {x : Nat} (hr : r = s.compute h (s.currentTarget h))
    (hg : g = { s.solved h with seq := x }) : g.tag = ⟨s.currentTarget h, true⟩
      ∧ g.nCmd = r.normalOver h.nCmd
      ∧ g.geometry = (h.geometry || r == .geometry) ∧ g.noSolution = (h.noSolution || r == .noSolution)
      ∧ { g with seq := h.seq, tag := h.tag, nCmd := h.nCmd, geometry := h.geometry, noSolution := h.noSolution } = h := by
  obtain ⟨htag, hnormal, hgeometry, hnosolution, hkept⟩ := s.solved_fields h r hr
  subst hg
  exact ⟨htag, hnormal, hgeometry, hnosolution, (congrArg (fun y : Hel => ({ y with seq := h.seq } : Hel)) hkept :)⟩

theorem State.solved_identity (s : State) (h : Hel) : (s.solved h).state = h.state ∧ (s.solved h).segment = h.segment
    ∧ (s.solved h).drop = h.drop ∧ (s.solved h).seq = h.seq := by
  obtain ⟨-, -, -, -, hkept⟩ := s.solved_fields h _ rfl
  exact ⟨(congrArg (fun g : Hel => g.state) hkept :), (congrArg (fun g : Hel => g.segment) hkept :),
    (congrArg (fun g : Hel => g.drop) hkept :), (congrArg (fun g : Hel => g.seq) hkept :)⟩

section
variable {s : State} {k i : Nat} {f : Frame} (hf : (s.seg k).frame = some f) (hphase : f.phase = .solving)
  (hi : f.heliostat = some i)
include hf hi

theorem State.offFrame_takeSolve : ((s.takeSolve k).seg k).offFrame = (s.seg k).offFrame := by
  rw [State.seg_takeSolve hf hi, if_pos rfl]
  rfl

theorem State.lastServed_takeSolve : (s.takeSolve k).lastServed = k := by
  rw [State.takeSolve_eq hf hi]

theorem State.others_takeSolve {n : Nat} (hn : n ≠ i) : (s.takeSolve k).hel n = s.hel n := by
  by_cases habsent : (s.hel i).state = .absent
  · rw [State.hel_congr (State.hels_takeSolve hf hi habsent)]
  · rw [State.hel_takeSolve hf hi habsent, if_neg hn]

include hphase

/-- A request of an absent record, or of one that has moved or is set aside, ends with the frame emptied. -/
theorem State.emptied_handOver (hcond : (s.hel i).state = .absent ∨ (s.hel i).state = .excluded ∨ (s.hel i).segment ≠ k
    ∨ (s.hel i).drop ≠ f.askedDrop) :
    ((s.takeSolve k).handOver.seg k).frame = none ∧ (s.takeSolve k).handOver.hels = (s.takeSolve k).hels := by
  refine (answered_takeSolve hf hphase hi).emptied ?_
  by_cases habsent : (s.hel i).state = .absent
  · exact .inl (by simp [habsent])
  · obtain ⟨hstate, hsegment, hdrop, -⟩ := s.solved_identity (s.hel i)
    rw [State.hel_takeSolve hf hi habsent, if_pos rfl, hstate, hsegment, hdrop]
    exact .inr hcond

/-- Any other request ends with its frame fixed. -/
theorem State.fixed_handOver (habsent : (s.hel i).state ≠ .absent) (hset : (s.hel i).state ≠ .excluded)
    (hsegment : (s.hel i).segment = k) (hdrop : (s.hel i).drop = f.askedDrop) :
    (s.takeSolve k).handOver.hel i = { s.solved (s.hel i) with seq := ((s.hel i).seq + 1) % 16 }
      ∧ ∃ g, ((s.takeSolve k).handOver.seg k).frame = some g
        ∧ s.FixedFrame k i f.origin { s.hel i with nCmd := (s.solved (s.hel i)).nCmd } g := by
  obtain ⟨hstate', hsegment', hdrop', hseq'⟩ := s.solved_identity (s.hel i)
  have hhel : (s.takeSolve k).hel i = s.solved (s.hel i) := by rw [State.hel_takeSolve hf hi habsent, if_pos rfl]
  have htarget : (s.takeSolve k).currentTarget (s.solved (s.hel i)) = s.currentTarget (s.hel i) := by
    rw [State.currentTarget_takeSolve hf hi, State.solved_currentTarget]
  have hfixed := (answered_takeSolve hf hphase hi).fixed (by simpa using habsent)
  rw [hhel, hstate', hsegment', hdrop', hseq', htarget] at hfixed
  obtain ⟨hrecord, g, hg, hfix⟩ := hfixed habsent hset hsegment hdrop (s.solved_fields _ _ rfl).1
  refine ⟨hrecord, g, hg, hfix.congr hdrop'.symm hseq'.symm htarget.symm ?_ rfl⟩
  rw [State.seg_takeSolve hf hi, if_pos rfl]

end

theorem State.lastServed_of_rest {t u : State} {hels : Tab Hel} {segs : Tab Seg} {out : Option SolveOut}
    (h : { t with hels := hels, segs := segs, solveOut := out } = u) : t.lastServed = u.lastServed :=
  (congrArg (fun v : State => v.lastServed) h :)

theorem State.rest_of_rest {t u s : State} (h : { t with hels := u.hels, segs := u.segs, solveOut := u.solveOut } = u)
    (hu : { u with hels := s.hels, segs := s.segs, lastServed := s.lastServed, solveOut := s.solveOut } = s) :
    { t with hels := s.hels, segs := s.segs, lastServed := s.lastServed, solveOut := s.solveOut } = s := by
  rw [← hu, ← h]

/-- Settles O35: a request that is taken, with the answer in the row's first form; and an answer that is out. -/
theorem solve : Obligations.Solve := by
  unfold Obligations.Solve
  refine ⟨?_, fun s o ho => ⟨exec_solveBegun_of_out ho, _, exec_solve_of_out ho, ?_⟩⟩
  · intro s c j k i f h r hc ho hj hk hsolving hbefore hf hi hh hr
    have hnext : s.nextSolve = some k := by
      rw [hk] at hsolving ⊢
      exact State.nextSolve_eq hj hsolving hbefore
    obtain ⟨hphase, -⟩ := (State.solving_iff hf).1 hsolving
    have hcompute : r = s.compute h (s.currentTarget h) := hr
    subst hh
    rcases hc with rfl | rfl
    · have ha := answered_takeSolve hf hphase hi
      have hemptied := State.emptied_handOver hf hphase hi
      have hfixed := State.fixed_handOver hf hphase hi
      have hpresent (habsent : (s.hel i).state ≠ .absent) : ∃ x, (s.takeSolve k).handOver.hel i = { s.solved (s.hel i) with seq := x } := by
        by_cases hcond : (s.hel i).state = .excluded ∨ (s.hel i).segment ≠ k ∨ (s.hel i).drop ≠ f.askedDrop
        · rw [State.hel_congr (hemptied (.inr hcond)).2, State.hel_takeSolve hf hi habsent, if_pos rfl]
          exact ⟨_, rfl⟩
        · obtain ⟨hset, hcond⟩ := not_or.1 hcond
          obtain ⟨hsegment, hdrop⟩ := not_or.1 hcond
          exact ⟨_, (hfixed habsent hset (not_not.1 hsegment) (not_not.1 hdrop)).1⟩
      refine ⟨_, exec_solve_of_next ho hnext, (State.lastServed_of_rest ha.rest).trans (State.lastServed_takeSolve hf hi),
        fun habsent => ?_, fun habsent => ?_, fun h => (by cases h), fun _ => ⟨ha.out, fun hcond => ?_, ?_⟩, ?_, ?_, ?_, ?_⟩
      · exact (hemptied (.inl habsent)).2.trans (State.hels_takeSolve hf hi habsent)
      · obtain ⟨x, hx⟩ := hpresent habsent
        obtain ⟨htag, hnormal, hflags⟩ := State.solved_record hcompute hx
        exact ⟨htag, hnormal.trans (by cases r <;> rfl), hflags⟩
      · obtain ⟨hframe, hhels⟩ := hemptied hcond
        refine ⟨hframe, ?_⟩
        rw [State.hel_congr hhels]
        by_cases habsent : (s.hel i).state = .absent
        · rw [State.hel_congr (State.hels_takeSolve hf hi habsent)]
        · rw [State.hel_takeSolve hf hi habsent, if_pos rfl, (s.solved_identity (s.hel i)).2.2.2]
      · intro habsent hset hsegment hdrop
        obtain ⟨hrecord, hframe⟩ := hfixed habsent hset hsegment hdrop
        rw [hrecord]
        exact ⟨rfl, hframe⟩
      · exact ha.seg.trans (State.offFrame_takeSolve hf hi)
      · exact fun n hn => (ha.others n hn).trans (State.others_takeSolve hf hi hn)
      · exact fun n hn => (ha.segs n hn).trans (by rw [State.seg_takeSolve hf hi, if_neg hn])
      · exact State.rest_of_rest ha.rest (State.rest_takeSolve hf hi)
    · have hrecord (habsent : (s.hel i).state ≠ .absent) :
          (s.takeSolve k).hel i = { s.solved (s.hel i) with seq := (s.hel i).seq } := by
        rw [State.hel_takeSolve hf hi habsent, if_pos rfl, ← (s.solved_identity (s.hel i)).2.2.2]
      refine ⟨_, exec_solveBegun_of_next ho hnext, State.lastServed_takeSolve hf hi, State.hels_takeSolve hf hi,
        fun habsent => ?_, fun _ => ⟨?_, ?_, ?_⟩, fun h => (by cases h),
        State.offFrame_takeSolve hf hi, fun n hn => State.others_takeSolve hf hi hn, fun n hn => ?_, State.rest_takeSolve hf hi⟩
      · obtain ⟨htag, hnormal, hflags⟩ := State.solved_record hcompute (hrecord habsent)
        exact ⟨htag, hnormal.trans (by cases r <;> rfl), hflags⟩
      · rw [State.takeSolve_eq hf hi]
      · by_cases habsent : (s.hel i).state = .absent
        · rw [State.hel_congr (State.hels_takeSolve hf hi habsent)]
        · rw [hrecord habsent]
      · rw [State.seg_takeSolve hf hi, if_pos rfl]
      · rw [State.seg_takeSolve hf hi, if_neg hn]
  · obtain ⟨hout, hsegs, hrest⟩ := s.handAnswer_scope o
    refine ⟨hout, State.lastServed_of_rest hrest, State.handAnswer_discard, fun f i h hf hphase htaken hi hh => ?_, hsegs, hrest⟩
    rw [hh]
    exact (answered_handAnswer hf hphase htaken hi).frame

end Sys2Proof.Machine
end

section
/-! PROOFS. The link commands: SET_LINK (R118, R119), RESTART_SEGMENT (R130, R138) and POST_MAINT (R128). -/

-- One proof after another: begun all at once, the proofs of the whole text outgrow the check's memory.
set_option Elab.async false

namespace Sys2Proof.Machine

/-! ### Operands -/

theorem Byte.eq_zero_iff (b : Byte) : b = 0 ↔ b.toNat = 0 := by
  rw [← BitVec.toNat_inj]
  rfl

/-- The settings of SET_LINK that are limited (R103, R119, R20, R45, R46). -/
theorem takenCode_setLink (tm q ml dl : Byte) (pt : BitVec 16) :
    takenCode (max 1 tm.toNat != tm.toNat || max 1 q.toNat != q.toNat || clamp 1 15 ml.toNat != ml.toNat
        || clamp 1 15 dl.toNat != dl.toNat || clampPtol pt.toNat != pt.toNat) =
      if tm = 0 ∨ q = 0 ∨ ml = 0 ∨ 15 < ml.toNat ∨ dl = 0 ∨ 15 < dl.toNat ∨ pt.toNat < 30000 ∨ 32767 < pt.toNat then .clamped
      else .done := by
  have hmax (n : Nat) : max 1 n ≠ n ↔ n = 0 := by omega
  rw [takenCode]
  refine if_congr ?_ rfl rfl
  simp only [Bool.or_eq_true, bne_iff_ne, hmax, clampPtol, clamp_ne_self_iff (show 1 ≤ 15 by decide),
    clamp_ne_self_iff (show 30000 ≤ 32767 by decide), Byte.eq_zero_iff, Nat.lt_one_iff]
  tauto

/-! ### SET_LINK -/

section
variable (s : State) (k : Nat) (enable : Bool)

/-- A segment after the enable flag is written (R118). -/
def State.enabledSeg : Seg :=
  if enable then
    if (s.seg k).state = .disabled then { s.seg k with
      state := s.restState k
      rate := (s.seg k).confRate
      errorRun := 0
      owed := s.stowInEffect
      activeUs := s.freshWatch k }
    else s.seg k
  else if (s.seg k).state = .disabled then s.seg k
  else { (s.seg k).abandon with state := .disabled, owed := false, activeUs := none }

theorem State.seg_setEnable (j : Nat) : (s.setEnable k enable).seg j = if j = k then s.enabledSeg k enable else s.seg j := by
  have hkeep : s.seg j = if j = k then s.seg k else s.seg j := by
    split
    next hj => rw [hj]
    next => rfl
  unfold State.setEnable State.enabledSeg
  cases enable
  · simp only [Bool.false_eq_true, if_false]
    split
    · exact hkeep
    · exact s.seg_modSeg k j _
  · simp only [if_true]
    split
    · exact s.seg_modSeg k j _
    · exact hkeep

theorem State.setEnable_port (p : Port) : (s.setEnable k enable).txn p = s.txn p ∧ (s.setEnable k enable).pau = s.pau := by
  unfold State.setEnable
  split <;> split <;> exact ⟨rfl, rfl⟩

end

/-- A segment's link settings written (R118, R119). -/
def Seg.linked (g : Seg) (r : Rate) (tm q : Nat) : Seg :=
  { g with confRate := r, rate := r, errorRun := 0, timeout := tm, quiet := q }

/-- What a taken SET_LINK makes of a state. -/
def State.linkWritten (s : State) (k : Nat) (enable : Bool) (r : Rate) (tm q : Nat) (l : LinkSettings) : State :=
  { (s.setEnable k enable).modSeg k fun g => g.linked r tm q with link := l }

theorem State.linkWritten_bare (s : State) (k : Nat) (enable : Bool) (r : Rate) (tm q : Nat) (l : LinkSettings) :
    (s.linkWritten k enable r tm q l).bare = { s with segs := (s.linkWritten k enable r tm q l).segs, link := l }.bare := by
  unfold State.linkWritten State.setEnable
  split <;> split <;> rfl

theorem State.seg_linkWritten (s : State) (k : Nat) (enable : Bool) (r : Rate) (tm q : Nat) (l : LinkSettings) (j : Nat) :
    (s.linkWritten k enable r tm q l).seg j = if j = k then (s.enabledSeg k enable).linked r tm q else s.seg j := by
  have hwrite : (s.linkWritten k enable r tm q l).seg j =
      if j = k then ((s.setEnable k enable).seg k).linked r tm q else (s.setEnable k enable).seg j :=
    State.seg_modSeg _ k j fun g => g.linked r tm q
  rw [hwrite, State.seg_setEnable, State.seg_setEnable, if_pos rfl]
  split <;> rfl

/-- The segment that SET_LINK leaves, by its enable flag before and after, `off` where the flag written is clear. -/
theorem State.enabledSeg_cases (s : State) (k : Nat) {enable : Bool} {off : Prop} [Decidable off] (hoff : enable = false ↔ off) :
    (s.enabledSeg k enable).state = (if off then .disabled else
        if (s.seg k).state = .disabled then (if (s.timer k).isSome then .waiting else .idle) else (s.seg k).state)
      ∧ ((off ↔ (s.seg k).state = .disabled) → s.enabledSeg k enable = s.seg k)
      ∧ (¬ off → (s.seg k).state = .disabled → s.enabledSeg k enable = { s.seg k with
          state := s.restState k, rate := (s.seg k).confRate, errorRun := 0, owed := s.stowInEffect
          activeUs := s.freshWatch k })
      ∧ (off → (s.seg k).state ≠ .disabled → s.enabledSeg k enable =
          { (s.seg k).abandon with state := .disabled, owed := false, activeUs := none }) := by
  unfold State.enabledSeg
  cases enable
  · have hclear : off := hoff.1 rfl
    by_cases hd : (s.seg k).state = .disabled <;> simp [hclear, hd]
  · have hset : ¬ off := fun h => by cases hoff.2 h
    by_cases hd : (s.seg k).state = .disabled <;> simp [hset, hd, State.restState]

/-- The ring, the queue, the latch and the counters of a segment. -/
def Seg.ring (g : Seg) : Seg :=
  { Seg.reset with
      urgent := g.urgent, slots := g.slots, head := g.head, count := g.count, inverted := g.inverted
      invertedRun := g.invertedRun, answered := g.answered, missed := g.missed, crcErrors := g.crcErrors }

theorem State.ring_enabledSeg (s : State) (k : Nat) (enable : Bool) : (s.enabledSeg k enable).ring = (s.seg k).ring := by
  unfold State.enabledSeg
  split <;> split <;> rfl

theorem execSetLink_taken {s : State} {k e b tm q ml dl : Byte} {pt : BitVec 16} {r : Rate} (hk : k.toNat ≤ 7)
    (hb : rateOf b = some r) (hr : s.accepts (.setLink k e b tm q ml dl pt) = true) :
    ∃ t, exec (.setLink k e b tm q ml dl pt) s = .next t
      ∧ Delivered s t .dispatch (takenCode (max 1 tm.toNat != tm.toNat || max 1 q.toNat != q.toNat
          || clamp 1 15 ml.toNat != ml.toNat || clamp 1 15 dl.toNat != dl.toNat || clampPtol pt.toNat != pt.toNat))
      ∧ t.link = ⟨clamp 1 15 ml.toNat, clamp 1 15 dl.toNat, clampPtol pt.toNat⟩
      ∧ (∀ j, t.seg j = if j = k.toNat then
          (s.enabledSeg k.toNat (e != 0)).linked r (max 1 tm.toNat) (max 1 q.toNat) else s.seg j)
      ∧ t.bare = { s with segs := t.segs, link := t.link }.bare := by
  refine exec_acted (w := ⟨.dispatch, _, _⟩) rfl hr rfl
    (f := fun u => u.linkWritten k.toNat (e != 0) r (max 1 tm.toNat) (max 1 q.toNat)
      ⟨clamp 1 15 ml.toNat, clamp 1 15 dl.toNat, clampPtol pt.toNat⟩) (fun x => ?_) (fun u => ?_) fun x => ⟨rfl, fun j => ?_, ?_⟩
  · dsimp only
    rw [hb]
    exact if_neg hk.not_gt
  · obtain ⟨hport, hpau⟩ := u.setEnable_port k.toNat (e != 0) .protection
    exact ⟨hport, congrArg Pau.supLeft hpau⟩
  · rw [State.seg_linkWritten]
    rfl
  · exact ((s.setTxn .dispatch x).linkWritten_bare k.toNat _ r _ _ _).trans rfl


theorem Seg.ring_fields {g g' : Seg} (h : g'.ring = g.ring) : g'.urgent = g.urgent ∧ g'.slots = g.slots ∧ g'.head = g.head
    ∧ g'.count = g.count ∧ g'.inverted = g.inverted ∧ g'.invertedRun = g.invertedRun ∧ g'.answered = g.answered
    ∧ g'.missed = g.missed ∧ g'.crcErrors = g.crcErrors :=
  ⟨(congrArg (fun x : Seg => x.urgent) h :), (congrArg (fun x : Seg => x.slots) h :), (congrArg (fun x : Seg => x.head) h :),
    (congrArg (fun x : Seg => x.count) h :), (congrArg (fun x : Seg => x.inverted) h :),
    (congrArg (fun x : Seg => x.invertedRun) h :), (congrArg (fun x : Seg => x.answered) h :),
    (congrArg (fun x : Seg => x.missed) h :), (congrArg (fun x : Seg => x.crcErrors) h :)⟩

/-- Settles O37: the settings written over what the enable flag makes of the segment. -/
theorem setLink : Obligations.SetLink := by
  unfold Obligations.SetLink
  rintro s k e b tm q ml dl pt r g hr hk hb rfl
  obtain ⟨t, hexec, hdelivered, hlink, hseg, hbare⟩ := execSetLink_taken hk hb hr
  obtain ⟨hstate, hstands, henabled, hdisabled⟩ :=
    s.enabledSeg_cases k.toNat (enable := e != 0) (off := e = 0) bne_eq_false_iff_eq
  obtain ⟨hurgent, hslots, hhead, hcount, hinverted, hrun, hanswered, hmissed, hcrc⟩ :=
    Seg.ring_fields (s.ring_enabledSeg k.toNat (e != 0))
  have hk' : t.seg k.toNat = (s.enabledSeg k.toNat (e != 0)).linked r (max 1 tm.toNat) (max 1 q.toNat) :=
    (hseg _).trans (if_pos rfl)
  refine ⟨t, hexec, takenCode_setLink tm q ml dl pt ▸ hdelivered, hlink, ?_⟩
  rw [hk']
  refine ⟨rfl, rfl, rfl, rfl, rfl, hstate, fun he hd => ?_, fun hiff => ?_, fun he hd => ?_, hurgent, hslots, hhead, hcount,
    hinverted, hrun, hanswered, hmissed, hcrc, fun j hj => (hseg j).trans (if_neg hj), hbare⟩
  · rw [henabled he hd]
    exact ⟨rfl, rfl, rfl, rfl, rfl, rfl⟩
  · rw [hstands hiff]
    rfl
  · rw [hdisabled he hd]
    exact ⟨rfl, rfl, rfl, rfl, rfl, rfl, .of_cutOff rfl rfl⟩

/-! ### POST_MAINT -/

theorem actionOf_eq_none {a : Byte} (h : a.toNat < 0x11 ∨ 0x14 < a.toNat) : actionOf a = none := by
  unfold actionOf
  split
  case h_5 => rfl
  all_goals omega

theorem actionOf_eq_some {a : Byte} (hlo : 0x11 ≤ a.toNat) (hhi : a.toNat ≤ 0x14) :
    ∃ act, actionOf a = some act ∧ act.kind.code = a := by
  have hcode (c : Byte) (h : a.toNat = c.toNat) : a = c := BitVec.eq_of_toNat_eq h
  have hcases : a.toNat = 0x11 ∨ a.toNat = 0x12 ∨ a.toNat = 0x13 ∨ a.toNat = 0x14 := by omega
  rcases hcases with h | h | h | h
  · exact hcode 0x11 h ▸ ⟨.move, rfl, rfl⟩
  · exact hcode 0x12 h ▸ ⟨.status, rfl, rfl⟩
  · exact hcode 0x13 h ▸ ⟨.clear, rfl, rfl⟩
  · exact hcode 0x14 h ▸ ⟨.param, rfl, rfl⟩

theorem Seg.slot_post (g : Seg) (i : Nat) (act : Action) (o : BitVec 48) (n : Nat) :
    (g.post i act o).slot n =
      if n = (g.head + g.count) % 16 then ⟨.part, i, act, bytes48 o, .none, none⟩ else g.slot n :=
  Tab.get_put Slot.reset ⟨.part, i, act, bytes48 o, .none, none⟩ g.slots ((g.head + g.count) % 16) n

/-- A post to a ring with room. -/
theorem exec_postMaint_taken {s : State} {b : Byte} {i : BitVec 16} {a : Byte} {o : BitVec 48} {act : Action}
    (hr : s.accepts (.postMaint b i a o) = true) (hb : b.toNat ≤ 7) (hi : i.toNat ≤ 1999) (ha : actionOf a = some act)
    (hroom : (s.seg b.toNat).count < 16) : ∃ t, exec (.postMaint b i a o) s = .next t ∧ Delivered s t .dispatch .done
      ∧ (∀ j, t.seg j = if j = b.toNat then (s.seg b.toNat).post i.toNat act o else s.seg j)
      ∧ t.bare = { s with segs := t.segs }.bare := by
  refine exec_acted (w := ⟨.dispatch, _, _⟩) rfl hr rfl (f := fun u => u.modSeg b.toNat fun g => g.post i.toNat act o)
    (fun x => ?_) (fun u => ⟨rfl, rfl⟩) fun x => ⟨fun j => ?_, rfl⟩
  · dsimp only
    rw [ha]
    dsimp only
    rw [if_neg (by omega), if_neg (by rw [State.setTxn_seg]; omega)]
  · rw [State.seg_modSeg, State.setTxn_seg, State.setTxn_seg]

/-- Settles O39: RANGE, FULL, or the record in the tail slot. -/
theorem postMaint : Obligations.PostMaint := by
  unfold Obligations.PostMaint
  rintro s b i a o k hr rfl
  by_cases hrange : 7 < b.toNat ∨ 1999 < i.toNat ∨ a.toNat < 0x11 ∨ 0x14 < a.toNat
  · obtain ⟨t, hexec, hdelivered, hbare⟩ : RefusedWith s (.postMaint b i a o) .dispatch .range := by
      refine refusedWith (w := ⟨.dispatch, _, _⟩) rfl hr rfl fun u _ => ?_
      cases hact : actionOf a with
      | none => rfl
      | some act =>
        have ha : ¬ (a.toNat < 0x11 ∨ 0x14 < a.toNat) := fun h => by rw [actionOf_eq_none h] at hact; cases hact
        exact if_pos (by omega)
    exact ⟨t, hexec, fun _ => ⟨hdelivered, hbare⟩, fun h1 h2 h3 h4 => by omega, fun h1 h2 h3 h4 => by omega⟩
  · obtain ⟨act, hact, hcode⟩ := actionOf_eq_some (a := a) (by omega) (by omega)
    by_cases hroom : (s.seg b.toNat).count < 16
    · obtain ⟨t, hexec, hdelivered, hseg, hbare⟩ := exec_postMaint_taken hr (by omega) (by omega) hact hroom
      refine ⟨t, hexec, fun h => absurd h hrange, fun _ _ _ _ h => absurd hroom h.not_gt, fun _ _ _ _ _ => ⟨hdelivered, ?_⟩⟩
      rw [hseg, if_pos rfl]
      refine ⟨rfl, rfl, ⟨act, hcode, ?_⟩, fun n hn => ?_, rfl, fun j hj => (hseg j).trans (if_neg hj), hbare⟩
      · rw [Seg.slot_post, if_pos rfl]
      · rw [Seg.slot_post, if_neg hn]
    · obtain ⟨t, hexec, hdelivered, hbare⟩ : RefusedWith s (.postMaint b i a o) .dispatch .full := by
        refine refusedWith (w := ⟨.dispatch, _, _⟩) rfl hr rfl fun u hu => ?_
        rw [hact]
        dsimp only
        rw [if_neg (by omega), if_pos (by rw [State.seg_of_bare_eq hu]; omega)]
      exact ⟨t, hexec, fun h => absurd h hrange, fun _ _ _ _ _ => ⟨hdelivered, hbare⟩, fun _ _ _ _ h => absurd h hroom⟩

/-! ### The ring cancelled (R130) -/

theorem Seg.slot_returnHead (g : Seg) (result : MaintResult) (reply : Option Reply) (n : Nat) :
    (g.returnHead result reply).slot n =
      if n = g.head then { g.slot g.head with owner := .dispatch, result := result, reply := reply } else g.slot n :=
  Tab.get_put Slot.reset { g.slot g.head with owner := .dispatch, result := result, reply := reply } g.slots g.head n

/-- Returning records writes the ring alone. -/
theorem cancelRing_rest (n : Nat) (g : Seg) :
    { cancelRing n g with slots := g.slots, head := g.head, count := g.count } = g ∧ (cancelRing n g).count = g.count - n := by
  induction n generalizing g with
  | zero => exact ⟨rfl, rfl⟩
  | succ n ih =>
    obtain ⟨hrest, hcount⟩ := ih (g.returnHead .cancelled none)
    refine ⟨?_, hcount.trans (Nat.sub_right_comm _ _ _)⟩
    exact (congrArg (fun x : Seg => ({ x with slots := g.slots, head := g.head, count := g.count } : Seg)) hrest :)

theorem cancelRing_fields (n : Nat) (g : Seg) : (cancelRing n g).frame = g.frame ∧ (cancelRing n g).cut = g.cut
    ∧ (cancelRing n g).passPos = g.passPos ∧ (cancelRing n g).pendingRelease = g.pendingRelease
    ∧ (cancelRing n g).turn = g.turn ∧ (cancelRing n g).quietLeft = g.quietLeft ∧ (cancelRing n g).confRate = g.confRate
    ∧ (cancelRing n g).timeout = g.timeout ∧ (cancelRing n g).quiet = g.quiet := by
  have h := (cancelRing_rest n g).1
  generalize cancelRing n g = c at h
  exact ⟨(congrArg (fun x : Seg => x.frame) h :), (congrArg (fun x : Seg => x.cut) h :), (congrArg (fun x : Seg => x.passPos) h :),
    (congrArg (fun x : Seg => x.pendingRelease) h :), (congrArg (fun x : Seg => x.turn) h :),
    (congrArg (fun x : Seg => x.quietLeft) h :), (congrArg (fun x : Seg => x.confRate) h :),
    (congrArg (fun x : Seg => x.timeout) h :), (congrArg (fun x : Seg => x.quiet) h :)⟩

/-- A slot cancelled. -/
def Slot.cancelled (r : Slot) : Slot := { r with owner := .dispatch, result := .cancelled, reply := none }

/-- The records from the head onward are returned CANCELLED, and the head stands after the last of them. -/
theorem cancelRing_ring (n : Nat) {g : Seg} (hhead : g.head ≤ 15) (hn : n ≤ 16) :
    (cancelRing n g).head = (g.head + n) % 16
      ∧ (∀ m < n, (cancelRing n g).slot ((g.head + m) % 16) = (g.slot ((g.head + m) % 16)).cancelled)
      ∧ (∀ x, (∀ m < n, x ≠ (g.head + m) % 16) → (cancelRing n g).slot x = g.slot x) := by
  induction n generalizing g with
  | zero =>
    have hzero : (g.head + 0) % 16 = g.head := Nat.mod_eq_of_lt (by omega)
    exact ⟨hzero.symm, fun m hm => absurd hm (Nat.not_lt_zero m), fun _ _ => rfl⟩
  | succ n ih =>
    have hnext : (g.returnHead .cancelled none).head = (g.head + 1) % 16 := rfl
    obtain ⟨hlast, hslots, hothers⟩ := ih (g := g.returnHead .cancelled none) (by omega) (by omega)
    have hstep m : ((g.returnHead .cancelled none).head + m) % 16 = (g.head + (m + 1)) % 16 := by omega
    refine ⟨hlast.trans (hstep n), fun m hm => ?_, fun x hx => ?_⟩
    · cases m with
      | zero =>
        have hzero : (g.head + 0) % 16 = g.head := Nat.mod_eq_of_lt (by omega)
        rw [hzero]
        refine (hothers g.head fun l hl => ?_).trans ?_
        · rw [hstep]
          omega
        · rw [Seg.slot_returnHead, if_pos rfl]
          rfl
      | succ m =>
        have hslot := hslots m (by omega)
        rw [hstep, Seg.slot_returnHead, if_neg (by omega)] at hslot
        exact hslot
    · refine (hothers x fun m hm => ?_).trans ?_
      · rw [hstep]
        exact hx (m + 1) (by omega)
      · rw [Seg.slot_returnHead, if_neg]
        have h0 := hx 0 (by omega)
        rwa [Nat.add_zero, Nat.mod_eq_of_lt (by omega)] at h0

/-! ### RESTART_SEGMENT (R138) -/

/-- An idempotent rewriting of the records of a list, taken once or more for each. -/
theorem Tab.get_update_idempotent {d : Hel} {f : Hel → Hel} (hf : ∀ h, f (f h) = f h) (is : List Nat) (t : Tab Hel) (j : Nat) :
    Tab.get d (Tab.update d (fun _ => f) is t) j = if j ∈ is then f (Tab.get d t j) else Tab.get d t j := by
  induction is generalizing t with
  | nil => rw [if_neg List.not_mem_nil]; rfl
  | cons i is ih =>
    refine (ih (Tab.put d t i (f (Tab.get d t i)))).trans ?_
    rw [Tab.get_put]
    by_cases hj : j = i
    · subst hj
      simp [hf]
    · simp [hj]

theorem Hel.restarted_restarted (k : Nat) (h : Hel) : (h.restarted k).restarted k = h.restarted k := by
  unfold Hel.restarted
  split <;> simp_all

section
variable (s : State) (k : Nat)

theorem State.hel_restart (i : Nat) : (s.restart k).hel i = (s.hel i).restarted k := by
  have hupdate : (s.restart k).hel i = Tab.get Hel.empty (Tab.update Hel.empty (fun _ => Hel.restarted k) s.present s.hels) i := by
    unfold State.restart
    dsimp only
    split <;> rfl
  rw [hupdate, Tab.get_update_idempotent (Hel.restarted_restarted k)]
  split
  · rfl
  next hi =>
    have habsent : (s.hel i).state = .absent := by
      by_contra hne
      exact hi (State.mem_present_of_ne hne)
    exact (if_neg fun h => h.1 habsent).symm

theorem State.segs_restart : (s.restart k).segs = (s.restartSeg k).segs := by
  unfold State.restart
  dsimp only
  split <;> rfl

theorem State.bare_restart :
    (s.restart k).bare = { s with segs := (s.restart k).segs, hels := (s.restart k).hels, devents := (s.restart k).devents }.bare := by
  unfold State.restart
  dsimp only
  split <;> rfl

theorem State.port_restart (p : Port) : (s.restart k).txn p = s.txn p ∧ (s.restart k).pau = s.pau := by
  unfold State.restart
  dsimp only
  split <;> cases p <;> exact ⟨rfl, rfl⟩

theorem State.dPending_restart (hcount : 0 < (s.seg k).count) : (s.restart k).dPending .maintReturned = true := by
  unfold State.restart
  dsimp only
  rw [if_pos hcount]
  exact State.dPending_raiseD _ _

/-- What a restart makes of its segment. -/
theorem State.seg_restartSeg (j : Nat) : (s.restartSeg k).seg j =
    if j = k then { cancelRing (s.seg k).count (s.seg k).abandon with
        state := if (s.seg k).state = .disabled then .disabled else s.restState k
        urgent := []
        inverted := false
        invertedRun := 0
        rate := (s.seg k).confRate
        errorRun := 0
        answered := 0
        missed := 0
        crcErrors := 0
        owed := if (s.seg k).state ≠ .disabled ∧ s.stowInEffect = true then true else (s.seg k).owed
        activeUs := if (s.seg k).state = .disabled then none
          else if (s.seg k).state = .locked ∨ (s.seg k).driverEnable = true then s.freshWatch k else (s.seg k).activeUs }
    else s.seg j := by
  unfold State.restartSeg
  exact s.seg_modSeg k j _

end

/-- A taken RESTART_SEGMENT. -/
theorem exec_restartSegment {s : State} {b : Byte} (hr : s.accepts (.restartSegment b) = true) (hb : b.toNat ≤ 7) :
    ∃ t, exec (.restartSegment b) s = .next t ∧ Delivered s t .dispatch .done
      ∧ (∀ j, t.seg j = (s.restartSeg b.toNat).seg j) ∧ (∀ i, t.hel i = (s.hel i).restarted b.toNat)
      ∧ (0 < (s.seg b.toNat).count → t.dPending .maintReturned = true)
      ∧ t.bare = { s with segs := t.segs, hels := t.hels, devents := t.devents }.bare := by
  refine exec_acted (w := ⟨.dispatch, _, _⟩) rfl hr rfl (f := fun u => u.restart b.toNat) (fun x => if_neg hb.not_gt) (fun u => ?_)
    fun x => ⟨fun j => ?_, fun i => ?_, fun hcount => ?_, ?_⟩
  · obtain ⟨hport, hpau⟩ := u.port_restart b.toNat .protection
    exact ⟨hport, congrArg Pau.supLeft hpau⟩
  · exact State.seg_congr (State.segs_restart _ _) j
  · exact State.hel_restart _ _ i
  · exact State.dPending_restart _ _ hcount
  · exact ((s.setTxn .dispatch x).bare_restart b.toNat).trans rfl

/-- Settles O38: the segment cancelled and reset, and the counts of its present heliostats. -/
theorem restartSegment : Obligations.RestartSegment := by
  unfold Obligations.RestartSegment
  rintro s b k g hr hb rfl rfl
  obtain ⟨t, hexec, hdelivered, hsegs, hhels, hreturned, hbare⟩ := exec_restartSegment hr hb
  have hseg := (hsegs b.toNat).trans ((s.seg_restartSeg b.toNat b.toNat).trans (if_pos rfl))
  have hcount : (cancelRing (s.seg b.toNat).count (s.seg b.toNat).abandon).count = 0 :=
    (cancelRing_rest _ _).2.trans (Nat.sub_self (s.seg b.toNat).count)
  obtain ⟨hframe, hcut, hpos, hpending, hturn, hquietLeft, hconf, htimeout, hquiet⟩ :=
    cancelRing_fields (s.seg b.toNat).count (s.seg b.toNat).abandon
  refine ⟨t, hexec, hdelivered, ?_⟩
  rw [hseg]
  refine ⟨hframe, .of_cutOff hframe hcut, hpos, hpending, hturn, hquietLeft, rfl, hcount, rfl, rfl, rfl, rfl, rfl, rfl, rfl, rfl,
    hconf, htimeout, hquiet, hreturned, ?_, fun hhead hle => cancelRing_ring _ hhead hle, fun i => (hhels i).trans rfl,
    fun j hj => (hsegs j).trans ((s.seg_restartSeg b.toNat j).trans (if_neg hj)), hbare⟩
  have howed : ((s.seg b.toNat).state != .disabled && s.stowInEffect) =
      decide ((s.seg b.toNat).state ≠ .disabled ∧ s.stowInEffect = true) := by
    rw [Bool.eq_iff_iff]
    simp
  rw [howed]
  by_cases hstow : (s.seg b.toNat).state ≠ .disabled ∧ s.stowInEffect = true
  · rw [if_pos hstow, decide_eq_true hstow, Bool.or_true]
  · rw [if_neg hstow, decide_eq_false hstow, Bool.or_false]

end Sys2Proof.Machine
end

section
/-! PROOFS. Sending and waiting (R102 to R104) and the babble lock (R131, R132). -/

-- One proof after another: begun all at once, the proofs of the whole text outgrow the check's memory.
set_option Elab.async false

namespace Sys2Proof.Machine

/-! ### What is on the line -/

theorem Seg.txAt_of_rate {g : Seg} {f : Frame} (hf : g.frame = some f) {r : Rate} (hr : f.rate = some r) (us : Nat) : g.txAt us = g.txBits[us / r.bitUs]? := by
  rw [Seg.txAt, hf]
  simp [hr]

section
variable {g : Seg} {f : Frame} (hf : g.frame = some f) (hsending : f.phase = .sending)
include hf hsending

theorem Seg.driverEnable_of_sending : g.driverEnable = true := by
  simp [Seg.driverEnable, hf, hsending]

theorem Seg.txBytes_of_sending : g.txBytes = f.bytes.map fun b => if g.inverted then ~~~b else b := by
  cases hinverted : g.inverted <;> simp [Seg.txBytes, hf, hsending, hinverted]

/-- The line bits of a frame, byte by byte (R102). -/
theorem Seg.txBits_of_sending : g.txBits = f.bytes.flatMap (fun b =>
    .start :: ((List.range 8).map fun j => .data ((if g.inverted then ~~~b else b).getLsbD j)) ++ [.stop]) := by
  rw [Seg.txBits, Seg.txBytes_of_sending hf hsending, List.flatMap_map]
  rfl

/-- A frame with a payload of six bytes has thirteen, sent in 130 bit times (R199). -/
theorem Seg.txBytes_length_of_payload (hpayload : f.payload.length = 6) : g.txBytes.length = 13 := by
  rw [Seg.txBytes_of_sending hf hsending, List.length_map]
  simp [Frame.bytes, Frame.covered, be8, bytes16, hpayload]

theorem Seg.txAt_eq_none_iff {r : Rate} (hr : f.rate = some r) (hpayload : f.payload.length = 6) (us : Nat) :
    g.txAt us = none ↔ 130 * r.bitUs ≤ us := by
  have hbit : 0 < r.bitUs := by cases r <;> decide
  rw [Seg.txAt_of_rate hf hr, List.getElem?_eq_none_iff, Seg.txBits_length,
    Seg.txBytes_length_of_payload hf hsending hpayload, Nat.le_div_iff_mul_le hbit]

end

theorem Frame.bytes_of_kind {f : Frame} {kind : Kind} (hkind : f.kind = some kind) :
    f.bytes = 0x7E :: 0xA5 :: (BitVec.ofNat 8 f.drop :: kind.code :: BitVec.ofNat 8 f.seq :: f.payload)
      ++ bytes16 (crc (BitVec.ofNat 8 f.drop :: kind.code :: BitVec.ofNat 8 f.seq :: f.payload)) := by
  simp [Frame.bytes, Frame.covered, be8, hkind]

/-! ### FRAME_SENT -/

theorem exec_frameSent {s : State} {k : Fin 8} {f : Frame} (hf : (s.seg k).frame = some f) (hsending : f.phase = .sending) :
    exec (.frameSent k) s = .next (s.modSeg k fun g => { g with activeUs := s.freshWatch k, frame := g.sent f }) := by
  rw [show exec (.frameSent k) s = execFrameSent k s from rfl, execFrameSent, hf]
  dsimp only
  rw [if_pos hsending]

/-- A segment whose frame has been sent sends nothing. -/
theorem Seg.silent_sent (g : Seg) (f : Frame) (x : Option Int) :
    ({ g with activeUs := x, frame := g.sent f } : Seg).driverEnable = false
      ∧ ({ g with activeUs := x, frame := g.sent f } : Seg).txBits = [] := by
  unfold Seg.sent
  split <;> exact ⟨rfl, rfl⟩

/-! ### RECEPTION_BEGINS -/

/-- A first marker byte is 0x7E or 0x81 whether the latch complements it or not. -/
theorem firstMarker_receive (g : Seg) (b : Byte) : firstMarker (g.receive b) = true ↔ b = 0x7E ∨ b = 0x81 := by
  have hnot (x y : Byte) (hxy : ~~~y = x) : ~~~b = x ↔ b = y := by
    rw [← hxy]
    exact ⟨fun h => by simpa using congrArg (~~~·) h, fun h => by rw [h]⟩
  rw [firstMarker, Seg.receive, Bool.or_eq_true, beq_iff_eq, beq_iff_eq]
  split
  · rw [hnot 0x7E 0x81 rfl, hnot 0x81 0x7E rfl, or_comm]
  · rfl

theorem exec_receptionBegins {s : State} {k : Fin 8} {f : Frame} (hf : (s.seg k).frame = some f) (hphase : f.phase = .awaiting)
    (hhunting : f.receiving = false) (b : Byte) (us : Nat) : exec (.receptionBegins k b us) s =
      .next (if (b = 0x7E ∨ b = 0x81) ∧ us < f.remaining then
          s.modSeg k fun g => { g with frame := some { f with receiving := true, remaining := f.remaining - us } }
        else s) := by
  rw [show exec (.receptionBegins k b us) s = execReceptionBegins k b us s from rfl, execReceptionBegins, hf]
  dsimp only
  simp only [firstMarker_receive, hphase, hhunting, true_and]

/-- Settles O41: the bits of a frame, the end of its last one, and the first marker byte that holds a wait. -/
theorem sendAndWait : Obligations.SendAndWait := by
  unfold Obligations.SendAndWait
  intro s k f hf
  refine ⟨fun hsending => ⟨Seg.driverEnable_of_sending hf hsending, fun kind covered hkind hcovered => ?_,
    Seg.txBits_of_sending hf hsending, fun r us bit hr hbit => ?_, _, exec_frameSent hf hsending, ?_⟩,
    fun b us hphase hhunting => ⟨_, exec_receptionBegins hf hphase hhunting b us, fun hmarker hearly => ?_, fun hno => ?_⟩⟩
  · rw [hcovered]
    exact Frame.bytes_of_kind hkind
  · have hbit' : bit = r.bitUs := by rw [hbit]; cases r <;> rfl
    rw [hbit']
    exact ⟨Seg.txAt_of_rate hf hr us, fun hpayload => ⟨Seg.txBytes_length_of_payload hf hsending hpayload,
      Seg.txAt_eq_none_iff hf hsending hr hpayload us⟩⟩
  · obtain ⟨hdriver, hbits⟩ := (s.seg k).silent_sent f (s.freshWatch k)
    rw [State.seg_modSeg_same]
    exact ⟨hdriver, hbits, rfl, rfl, rfl, fun j hj => (State.seg_modSeg _ _ _ _).trans (if_neg hj), rfl⟩
  · rw [if_pos ⟨hmarker, hearly⟩]
    refine ⟨?_, ?_, fun j hj => (State.seg_modSeg _ _ _ _).trans (if_neg hj), rfl⟩ <;> rw [State.seg_modSeg_same]
  · refine if_neg fun ⟨hmarker, hearly⟩ => ?_
    rcases hno with ⟨h7E, h81⟩ | hlate
    · exact hmarker.elim h7E h81
    · omega

/-! ### The babble lock -/

theorem State.rxActive_setRx (s : State) (k : Fin 8) (active : Bool) : (s.setRx k active).rxActive k = active := by
  cases active <;> simp [State.setRx, State.rxActive]

theorem exec_segmentLocked {s : State} {k : Fin 8} (henabled : (s.seg k).state ≠ .disabled) (hopen : (s.seg k).state ≠ .locked)
    (hoff : (s.seg k).driverEnable = false) : exec (.segmentLocked k) s =
      .next (((s.setRx k true).modSeg k fun g => { g.abandon with state := .locked, activeUs := none }).raiseD .segmentLocked) := by
  rw [show exec (.segmentLocked k) s = execSegmentLocked k s from rfl, execSegmentLocked]
  dsimp only
  rw [if_neg (by simp [henabled, hopen, hoff])]

theorem exec_quietExpiry {s : State} {k : Fin 8} {d : Nat} (hlocked : (s.seg k).state = .locked)
    (hquiet : (s.seg k).quietLeft = some d) : exec (.quietExpiry k) s =
      .next ((s.elapse d).modSeg k fun g => { g with state := (s.elapse d).restState k, quietLeft := none }) := by
  rw [show exec (.quietExpiry k) s = execQuietExpiry k s from rfl, execQuietExpiry, hlocked, hquiet]

/-- A release timer runs after some time exactly where it ran before. -/
theorem State.restState_elapse (s : State) (d : Nat) (k : Fin 8) :
    (s.elapse d).restState k = if (s.timer k).isSome then .waiting else .idle := by
  rw [State.restState, State.timer_elapse s d k.isLt, Option.isSome_map]

/-- Settles O45: the lock, the level of the line while it lasts, and its end. -/
theorem babbleLock : Obligations.BabbleLock := by
  unfold Obligations.BabbleLock
  rintro s k g rfl
  have hothers {u : State} {f : Seg → Seg} (hu : u.segs = s.segs) (j : Nat) (hj : j ≠ k.val) : (u.modSeg k f).seg j = s.seg j :=
    (State.seg_modSeg _ _ _ _).trans ((if_neg hj).trans (State.seg_congr hu j))
  refine ⟨fun henabled hopen hoff => ⟨_, exec_segmentLocked henabled hopen hoff, ?_, State.dPending_raiseD _ _,
      fun j hj => ?_, rfl⟩,
    ⟨_, rfl, State.seg_modSeg_same _ _ _, hothers (u := s.setRx k false) rfl, s.rxActive_setRx k false, rfl⟩,
    ⟨_, rfl, ?_, ?_, ?_, hothers (u := s.setRx k true) rfl, s.rxActive_setRx k true, rfl⟩,
    fun d hlocked hquiet => ⟨_, exec_quietExpiry hlocked hquiet, ?_, ?_, rfl, ?_, ?_, rfl, rfl, rfl⟩⟩
  · rw [State.raiseD_seg, State.seg_modSeg_same]
    have hcut := Seg.cutOff_of_off hoff
    unfold Seg.abandon
    rw [show (s.setRx k true).seg k = s.seg k from rfl, hcut]
  · rw [State.raiseD_seg]
    exact hothers (u := s.setRx k true) rfl j hj
  · rw [State.seg_modSeg_same]
  · rw [State.seg_modSeg_same]
    rfl
  · rw [State.seg_modSeg_same]
    rfl
  all_goals rw [State.seg_modSeg_same]
  · exact s.restState_elapse d k
  · rw [State.seg_elapse s d k.isLt]
    rfl
  · rw [State.seg_elapse s d k.isLt]
    rfl

end Sys2Proof.Machine
end

section
/-! PROOFS. What a segment takes at a frame boundary (R121, R124, R125, R129). -/

-- One proof after another: begun all at once, the proofs of the whole text outgrow the check's memory.
set_option Elab.async false

namespace Sys2Proof.Machine

/-! ### What serving a segment can write -/

/-- What one segment's service can write: its own controller, the records and the events. -/
def ServesSeg (s t : State) (k : Nat) : Prop :=
  (∀ j, j ≠ k → t.seg j = s.seg j) ∧ { t with hels := s.hels, segs := s.segs, devents := s.devents } = s

namespace ServesSeg
variable {s t : State} {k : Nat}

theorem refl : ServesSeg s s k := ⟨fun _ _ => rfl, rfl⟩

theorem modSeg (h : ServesSeg s t k) (f : Seg → Seg) : ServesSeg s (t.modSeg k f) k :=
  ⟨fun j hj => ((State.seg_modSeg _ _ _ _).trans (if_neg hj)).trans (h.1 j hj), h.2⟩

theorem raiseD (h : ServesSeg s t k) (e : DEvent) : ServesSeg s (t.raiseD e) k := ⟨h.1, h.2⟩

theorem fixFrame (h : ServesSeg s t k) (i : Nat) (f : Frame) : ServesSeg s (t.fixFrame k i f) k :=
  ⟨(h.modSeg fun g => { g with frame := some f, activeUs := none }).1, h.2⟩

theorem maintReturn (h : ServesSeg s t k) (result : MaintResult) (reply : Option Reply) :
    ServesSeg s (t.maintReturn k result reply) k :=
  (h.modSeg _).raiseD _

theorem passEnd (h : ServesSeg s t k) : ServesSeg s (t.passEnd k) k := by
  unfold State.passEnd
  split
  · exact h.modSeg _
  · exact h.modSeg _

theorem buildFrame (h : ServesSeg s t k) (i : Nat) (o : Origin) : ServesSeg s (t.buildFrame k i o) k := by
  unfold State.buildFrame
  dsimp only
  split
  · exact h
  · split
    · exact h.fixFrame i _
    · exact h.modSeg _

theorem serveMaint (h : ServesSeg s t k) : ServesSeg s (t.serveMaint k) k := by
  unfold State.serveMaint
  dsimp only
  split
  · exact h.maintReturn _ _
  · exact (h.fixFrame _ _).modSeg _

theorem servePass (h : ServesSeg s t k) : ServesSeg s (t.servePass k) k := by
  unfold State.servePass
  split
  · exact (h.modSeg _).buildFrame _ _
  · exact h.passEnd

theorem takeNext (h : ServesSeg s t k) : ServesSeg s (t.takeNext k) k := by
  unfold State.takeNext
  dsimp only
  split
  · exact (h.modSeg _).modSeg _
  · split
    · exact (h.modSeg _).buildFrame _ _
    · split
      · exact h.serveMaint
      · split
        · exact h.servePass
        · exact h

end ServesSeg

/-! ### A frame built (R99) -/

section
variable {s : State} {k i : Nat} {o : Origin}

theorem State.buildFrame_of_dropped
    (h : (s.hel i).state = .absent ∨ (s.hel i).segment ≠ k ∨ (s.hel i).state = .excluded) : s.buildFrame k i o = s :=
  if_pos h

theorem State.buildFrame_of_served
    (h : ¬ ((s.hel i).state = .absent ∨ (s.hel i).segment ≠ k ∨ (s.hel i).state = .excluded)) :
    s.buildFrame k i o = if (s.hel i).tag.matches (s.currentTarget (s.hel i)) then s.fixFrame k i (s.trackFrame k i o)
      else s.modSeg k fun g => { g with frame := some (solvingFrame i (s.hel i).drop o) } :=
  if_neg h

/-- What building leaves of the segment but its dialogue. -/
theorem State.offFrame_buildFrame : ((s.buildFrame k i o).seg k).offFrame = (s.seg k).offFrame := by
  unfold State.buildFrame
  dsimp only
  split
  · rfl
  · split
    · exact (s.fixFrame_fields k i _).2.1
    · rw [State.seg_modSeg_same]
      rfl

theorem State.devents_buildFrame : (s.buildFrame k i o).devents = s.devents := by
  unfold State.buildFrame
  dsimp only
  split
  · rfl
  · split <;> rfl

theorem frameBuilt_buildFrame (hframe : (s.seg k).frame = none) : FrameBuilt s (s.buildFrame k i o) k i o := by
  refine ⟨fun hdropped => ?_, fun hpresent hsegment hset => ?_⟩
  · rw [State.buildFrame_of_dropped hdropped]
    exact ⟨hframe, rfl⟩
  · rw [State.buildFrame_of_served (by simp [hpresent, hsegment, hset])]
    refine ⟨fun htag => ?_, fun htag => ?_⟩
    · rw [if_pos ((Tag.matches_iff _ _).2 htag)]
      obtain ⟨hfixed, -, -, hrecord, hothers, -⟩ := s.fixFrame_fields k i (s.trackFrame k i o)
      exact ⟨hrecord, hothers, _, hfixed, s.fixedFrame_trackFrame k i o⟩
    · rw [if_neg fun h => htag ((Tag.matches_iff _ _).1 h), State.seg_modSeg_same]
      exact ⟨rfl, _, rfl, rfl, rfl, rfl, rfl, rfl⟩

/-- The frame is built of the records, tags and targets that stood before the segment's own write. -/
theorem frameBuilt_buildFrame_modSeg {f : Seg → Seg} (hframe : (f (s.seg k)).frame = none)
    (hrate : (f (s.seg k)).rate = (s.seg k).rate) : FrameBuilt s ((s.modSeg k f).buildFrame k i o) k i o := by
  obtain ⟨hdropped, hserved⟩ := frameBuilt_buildFrame (s := s.modSeg k f) (k := k) (i := i) (o := o)
    (by rw [State.seg_modSeg_same]; exact hframe)
  refine ⟨hdropped, fun hpresent hsegment hset => ?_⟩
  obtain ⟨hfixed, hasked⟩ := hserved hpresent hsegment hset
  refine ⟨fun htag => ?_, hasked⟩
  obtain ⟨hrecord, hothers, g, hg, hfix⟩ := hfixed htag
  refine ⟨hrecord, hothers, g, hg, hfix.congr rfl rfl rfl ?_ rfl⟩
  rw [State.seg_modSeg_same, hrate]

end

/-! ### The pass item of the lowest drop (R124) -/

section
variable (s : State)

theorem State.foldl_lowerDrop_eq {i : Nat} (l : List Nat) (best : Option Nat) (hi : i ∈ l ∨ best = some i)
    (hl : ∀ j ∈ l, j ≠ i → (s.hel i).drop < (s.hel j).drop)
    (hbest : ∀ j, best = some j → j ≠ i → (s.hel i).drop < (s.hel j).drop) : l.foldl s.lowerDrop best = some i := by
  induction l generalizing best with
  | nil => exact hi.resolve_left List.not_mem_nil
  | cons a l ih =>
    rw [List.foldl_cons]
    have hrest : ∀ j ∈ l, j ≠ i → (s.hel i).drop < (s.hel j).drop := fun j hj => hl j (List.mem_cons_of_mem a hj)
    have ha : a ≠ i → (s.hel i).drop < (s.hel a).drop := hl a List.mem_cons_self
    cases best with
    | none =>
      refine ih (some a) ?_ hrest fun j hj => by cases hj; exact ha
      rcases hi with hi | hi
      · exact (List.mem_cons.1 hi).elim (fun h => .inr (h ▸ rfl)) .inl
      · cases hi
    | some b =>
      have hb : b ≠ i → (s.hel i).drop < (s.hel b).drop := hbest b rfl
      rw [State.lowerDrop]
      split
      next hlt =>
        refine ih (some a) ?_ hrest fun j hj => by cases hj; exact ha
        rcases hi with hi | hi
        · exact (List.mem_cons.1 hi).elim (fun h => .inr (h ▸ rfl)) .inl
        · cases hi
          by_contra hno
          obtain ⟨-, hne⟩ := not_or.1 hno
          have := ha fun h => hne (h ▸ rfl)
          omega
      next hge =>
        refine ih (some b) ?_ hrest fun j hj => by cases hj; exact hb
        rcases hi with hi | hi
        · rcases List.mem_cons.1 hi with h | h
          · subst h
            by_contra hno
            obtain ⟨-, hne⟩ := not_or.1 hno
            have := hb fun h => hne (h ▸ rfl)
            omega
          · exact .inl h
        · exact .inr hi

theorem Seg.below_iff (g : Seg) (d : Nat) : g.below d = true ↔ ∀ p, g.passPos = some p → p < d := by
  cases hp : g.passPos <;> simp [Seg.below, hp]

/-- The items of a pass: the present heliostats of the segment that are not EXCLUDED, above the pass position. -/
theorem State.mem_passItems (hwf : s.tablesOk = true) (k i : Nat) :
    i ∈ s.present.filter (fun i => (s.hel i).segment == k && (s.hel i).state != .excluded && (s.seg k).below (s.hel i).drop)
      ↔ (s.hel i).segment = k ∧ (s.hel i).state ≠ .absent ∧ (s.hel i).state ≠ .excluded
        ∧ ∀ p, (s.seg k).passPos = some p → p < (s.hel i).drop := by
  rw [List.mem_filter, State.mem_present_iff ((State.tablesOk_iff s).1 hwf).1, Bool.and_eq_true, Bool.and_eq_true, Seg.below_iff,
    beq_iff_eq, bne_iff_ne]
  tauto

/-- The item of the lowest drop is the next one. -/
theorem State.nextPassItem_eq_some {k i : Nat} (hwf : s.tablesOk = true) (hseg : (s.hel i).segment = k)
    (hpresent : (s.hel i).state ≠ .absent) (hset : (s.hel i).state ≠ .excluded)
    (habove : ∀ p, (s.seg k).passPos = some p → p < (s.hel i).drop)
    (hlowest : ∀ j, j ≠ i → (s.hel j).segment = k → (s.hel j).state ≠ .absent → (s.hel j).state ≠ .excluded →
      (∀ p, (s.seg k).passPos = some p → p < (s.hel j).drop) → (s.hel i).drop < (s.hel j).drop) :
    s.nextPassItem k = some i := by
  refine s.foldl_lowerDrop_eq _ none (.inl ((s.mem_passItems hwf k i).2 ⟨hseg, hpresent, hset, habove⟩)) (fun j hj hne => ?_)
    fun j hj => (by cases hj)
  obtain ⟨h1, h2, h3, h4⟩ := (s.mem_passItems hwf k j).1 hj
  exact hlowest j hne h1 h2 h3 h4

/-- There is no item where every heliostat of the segment stands at or below the pass position. -/
theorem State.nextPassItem_eq_none {k : Nat} (hwf : s.tablesOk = true)
    (hdone : ∀ i, (s.hel i).segment = k → (s.hel i).state ≠ .absent → (s.hel i).state ≠ .excluded →
      ∃ p, (s.seg k).passPos = some p ∧ (s.hel i).drop ≤ p) : s.nextPassItem k = none := by
  have hempty : s.present.filter (fun i => (s.hel i).segment == k && (s.hel i).state != .excluded
      && (s.seg k).below (s.hel i).drop) = [] := by
    refine List.eq_nil_iff_forall_not_mem.2 fun i hi => ?_
    obtain ⟨hseg, hpresent, hset, habove⟩ := (s.mem_passItems hwf k i).1 hi
    obtain ⟨p, hp, hle⟩ := hdone i hseg hpresent hset
    exact absurd (habove p hp) hle.not_gt
  rw [State.nextPassItem, hempty]
  rfl

end

/-! ### The four choices of R121 -/

section
variable {s : State} {k : Nat}

theorem State.takeNext_of_owed (h : (s.seg k).owed = true) :
    s.takeNext k = (s.sendFrame k (broadcastFrame (s.seg k).rate)).modSeg k fun g => { g with owed := false } :=
  if_pos h

theorem State.takeNext_of_urgent {i : Nat} {rest : List Nat} (ho : (s.seg k).owed = false) (hu : (s.seg k).urgent = i :: rest) :
    s.takeNext k = (s.modSeg k fun g => { g with urgent := rest }).buildFrame k i .urgent := by
  simp only [State.takeNext, ho, hu, Bool.false_eq_true, if_false]

theorem State.takeNext_of_calm (ho : (s.seg k).owed = false) (hu : (s.seg k).urgent = []) :
    s.takeNext k = if 0 < (s.seg k).count ∧ ((s.seg k).state ≠ .passing ∨ (s.seg k).turn = true) then s.serveMaint k
      else if (s.seg k).state = .passing then s.servePass k else s := by
  simp only [State.takeNext, ho, hu, Bool.false_eq_true, if_false]

end

/-! ### The head maintenance record served (R129) -/

theorem State.maintRefused_iff (s : State) (k : Nat) (r : Slot) :
    s.maintRefused k r = true ↔ (s.hel r.heliostat).state = .absent ∨ (s.hel r.heliostat).segment ≠ k
      ∨ (r.action = .move ∧ ((s.hel r.heliostat).state ≠ .excluded ∨ s.stowInEffect = true ∨ s.pau.defocus = true)) := by
  simp [State.maintRefused, or_assoc]

/-- A record returned stands in its slot, and the head moves on. -/
theorem recordReturned_returnHead (g : Seg) (result : MaintResult) (reply : Option Reply) :
    RecordReturned g (g.returnHead result reply) result reply :=
  ⟨(g.slot_returnHead result reply g.head).trans (if_pos rfl), fun n hn => (g.slot_returnHead result reply n).trans (if_neg hn),
    rfl, rfl⟩

theorem State.serveMaint_of_refused {s : State} {k : Nat} (h : s.maintRefused k ((s.seg k).slot (s.seg k).head) = true) :
    s.serveMaint k = s.maintReturn k .refused none :=
  if_pos h

theorem State.serveMaint_of_taken {s : State} {k : Nat} {r : Slot} (hr : r = (s.seg k).slot (s.seg k).head)
    (h : s.maintRefused k r = false) :
    s.serveMaint k = (s.fixFrame k r.heliostat (s.maintFrame k r)).modSeg k fun g => { g with turn := false } := by
  subst hr
  exact if_neg (Bool.not_eq_true _ ▸ h)

/-- A maintenance frame carries a normal only where it is a MAINT_MOVE of six operand bytes. -/
theorem Slot.payload_normal_iff (r : Slot) : r.payload.2.isSome ↔ r.action = .move ∧ r.ops.length = 6 := by
  rw [Slot.payload]
  split
  next hact hops => simp [hact, hops]
  next hact hops => simp [hact]
  next hmove _ =>
    refine iff_of_false Bool.noConfusion fun ⟨hact, hlen⟩ => ?_
    match hops : r.ops, hlen with
    | [a, b, c, d, e, f], _ => exact hmove a b c d e f hact hops

/-! ### The settling of O40 -/

theorem exec_nextItemTaken {s : State} {k : Fin 8} (hframe : (s.seg k).frame = none)
    (hstate : (s.seg k).state = .idle ∨ (s.seg k).state = .waiting ∨ (s.seg k).state = .passing) :
    exec (.nextItemTaken k) s = .next (s.takeNext k) := by
  have hboundary : (s.seg k).atBoundary = true := by
    simpa [Seg.atBoundary, hframe, or_assoc] using hstate
  show execNextItemTaken k s = _
  rw [execNextItemTaken, if_pos hboundary]

/-- Settles O40: the order of service, choice by choice. -/
theorem nextItemTaken : Obligations.NextItemTaken := by
  unfold Obligations.NextItemTaken
  rintro s k g rfl hframe hstate
  obtain ⟨hothers, hrest⟩ := (ServesSeg.refl (s := s)).takeNext (k := k.val)
  refine ⟨_, exec_nextItemTaken hframe hstate, fun ho => ?_, fun i rest ho hu => ?_, ?_, ?_, ?_, hothers, hrest⟩
  · rw [State.takeNext_of_owed ho, State.seg_modSeg_same, State.sendFrame, State.seg_modSeg_same]
    exact ⟨rfl, rfl, _, rfl, rfl, rfl, rfl, rfl, rfl, rfl, rfl⟩
  · rw [State.takeNext_of_urgent ho hu]
    refine ⟨?_, frameBuilt_buildFrame_modSeg hframe rfl, State.devents_buildFrame⟩
    refine (congrArg Seg.urgent State.offFrame_buildFrame :).trans ?_
    rw [State.seg_modSeg_same]
    rfl
  · rintro r h refused ho hu hcount hturn hr rfl hrefused
    rw [State.takeNext_of_calm ho hu, if_pos ⟨hcount, hturn⟩]
    have hmaint : s.maintRefused k r = refused := Bool.eq_iff_iff.2 ((s.maintRefused_iff k r).trans hrefused.symm)
    refine ⟨fun h => ?_, fun h => ?_⟩
    · rw [State.serveMaint_of_refused (hr ▸ hmaint.trans h), State.maintReturn, State.raiseD_seg, State.seg_modSeg_same]
      exact ⟨recordReturned_returnHead _ _ _, hframe, rfl, rfl, State.dPending_raiseD _ _⟩
    · rw [State.serveMaint_of_taken hr (hmaint.trans h), State.seg_modSeg_same]
      obtain ⟨hfixed, hoff, -, hrecord, hrecords, -⟩ := s.fixFrame_fields k r.heliostat (s.maintFrame k r)
      exact ⟨rfl, (congrArg Seg.slots hoff :), (congrArg Seg.count hoff :), hrecord, hrecords, _, hfixed, rfl, rfl, rfl, rfl, rfl, rfl,
        rfl, rfl, r.payload_normal_iff⟩
  · intro hwf ho hu hserve hpassing
    rw [State.takeNext_of_calm ho hu, if_neg (by rintro ⟨h1, h2⟩; rcases hserve with h | h <;> simp_all), if_pos hpassing,
      State.servePass]
    refine ⟨?_, fun hdone => ?_⟩
    · rintro i h rfl hseg hpresent hset habove hlowest
      rw [s.nextPassItem_eq_some hwf hseg hpresent hset habove hlowest]
      have hoff := State.offFrame_buildFrame (s := s.modSeg k fun g => { g with passPos := some (s.hel i).drop, turn := true })
        (k := k) (i := i) (o := .pass)
      rw [State.seg_modSeg_same] at hoff
      exact ⟨(congrArg Seg.passPos hoff :), (congrArg Seg.turn hoff :), frameBuilt_buildFrame_modSeg hframe rfl⟩
    · rw [s.nextPassItem_eq_none hwf hdone]
      dsimp only
      rw [State.passEnd]
      split
      next hpending =>
        rw [State.seg_modSeg_same]
        exact ⟨rfl, rfl, hframe, rfl, fun h => absurd (hpending.symm.trans h) Bool.noConfusion, fun _ => ⟨rfl, rfl, rfl, rfl, rfl⟩⟩
      next hpending =>
        rw [State.seg_modSeg_same]
        have hnone := Bool.eq_false_iff.2 hpending
        exact ⟨rfl, rfl, hframe, hnone, fun _ => ⟨rfl, rfl⟩, fun h => absurd h hpending⟩
  · intro ho hu hcount hpassing
    rw [State.takeNext_of_calm ho hu, if_neg fun h => by omega, if_neg hpassing]

end Sys2Proof.Machine
end

section
/-! PROOFS. A wait that ends in a miss, and the end of a dialogue (R105 to R108, R116). -/

-- One proof after another: begun all at once, the proofs of the whole text outgrow the check's memory.
set_option Elab.async false

namespace Sys2Proof.Machine

/-! ### The end of a dialogue: a maintenance record is returned, and FIELD_CLEAR follows -/

/-- How a dialogue ends: a MAINT frame's record is returned, and FIELD_CLEAR is brought up to date (R116, R171). -/
def State.dialogueEnd (s : State) (k : Nat) (o : Origin) (result : MaintResult) (reply : Option Reply) : State :=
  (if o = .maint then s.maintReturn k result reply else s).refreshClear

/-- A segment without its maintenance ring. -/
def Seg.offRing (g : Seg) : Seg := { g with slots := [], head := 0, count := 0 }

section
variable (s : State) (k : Nat) (o : Origin) (result : MaintResult) (reply : Option Reply)

@[simp] theorem State.dialogueEnd_hels : (s.dialogueEnd k o result reply).hels = s.hels := by
  rw [State.dialogueEnd, State.refreshClear_hels]
  split <;> rfl

@[simp] theorem State.dialogueEnd_zones : (s.dialogueEnd k o result reply).zones = s.zones := by
  rw [State.dialogueEnd, State.refreshClear_zones]
  split <;> rfl

@[simp] theorem State.dialogueEnd_hel (i : Nat) : (s.dialogueEnd k o result reply).hel i = s.hel i :=
  congrArg (Tab.get Hel.empty · i) (s.dialogueEnd_hels k o result reply)

@[simp] theorem State.dialogueEnd_zone (z : Nat) : (s.dialogueEnd k o result reply).zone z = s.zone z :=
  congrArg (Tab.get Zone.reset · z) (s.dialogueEnd_zones k o result reply)

@[simp] theorem State.offRecords_dialogueEnd : (s.dialogueEnd k o result reply).offRecords = s.offRecords := by
  rw [State.dialogueEnd, State.offRecords_refreshClear]
  split <;> rfl

theorem State.seg_dialogueEnd : (s.dialogueEnd k o result reply).seg k =
    if o = .maint then (s.seg k).returnHead result reply else s.seg k := by
  rw [State.dialogueEnd, State.refreshClear_seg]
  split
  · exact State.seg_modSeg_same s k fun g => g.returnHead result reply
  · rfl

theorem State.seg_dialogueEnd_of_ne {j : Nat} (hj : j ≠ k) : (s.dialogueEnd k o result reply).seg j = s.seg j := by
  rw [State.dialogueEnd, State.refreshClear_seg]
  split
  · exact (State.seg_modSeg s k j fun g => g.returnHead result reply).trans (if_neg hj)
  · rfl

theorem State.offRing_dialogueEnd : ((s.dialogueEnd k o result reply).seg k).offRing = (s.seg k).offRing := by
  rw [State.seg_dialogueEnd]
  split <;> rfl

theorem State.dPending_dialogueEnd (e : DEvent) : (s.dialogueEnd k o result reply).dPending e
    = (s.dPending e || decide (o = .maint ∧ e = .maintReturned)) := by
  rw [State.dialogueEnd, State.dPending_refreshClear]
  split
  next ho =>
    rw [State.maintReturn, State.dPending_raiseD_iff]
    simp [ho, eq_comm, State.dPending]
  next ho => simp [ho]

theorem State.recordReturned_dialogueEnd (ho : o = .maint) :
    RecordReturned (s.seg k) ((s.dialogueEnd k o result reply).seg k) result reply := by
  rw [State.seg_dialogueEnd, if_pos ho]
  exact recordReturned_returnHead _ _ _

end

theorem RecordReturned.congr {g g' h : Seg} {result : MaintResult} {reply : Option Reply} (hr : RecordReturned g' h result reply)
    (hslots : g'.slots = g.slots) (hhead : g'.head = g.head) (hcount : g'.count = g.count) :
    RecordReturned g h result reply := by
  have hslot n : g'.slot n = g.slot n := congrArg (Tab.get Slot.reset · n) hslots
  obtain ⟨hreturned, hothers, hnext, hleft⟩ := hr
  rw [hhead] at hreturned hothers hnext
  rw [hcount] at hleft
  exact ⟨hreturned.trans (by rw [hslot]), fun n hn => (hothers n hn).trans (hslot n), hnext, hleft⟩

theorem State.timer_of_offRecords {t u : State} (h : t.offRecords = u.offRecords) (k : Nat) : t.timer k = u.timer k :=
  (congrArg (fun v : State => v.timer k) h :)

theorem State.sun_of_offRecords {t u : State} (h : t.offRecords = u.offRecords) : t.sun = u.sun :=
  (congrArg (fun v : State => v.sun) h :)

/-! ### One miss, by the state it finds (R45, R47) -/

section
variable (s : State) (i : Nat)

theorem State.hel_missed_same : (s.modHel i Hel.missed).hel i = (s.hel i).missed := State.hel_modHel_same _ _ _

theorem State.missOne_of_below (h : min 15 ((s.hel i).miss + 1) < s.link.missLimit) : s.missOne i = s.modHel i Hel.missed :=
  (s.missOne_eq i).trans (if_neg (Nat.not_le.2 h))

theorem State.missOne_of_limit (h : s.link.missLimit ≤ min 15 ((s.hel i).miss + 1)) :
    s.missOne i = (s.modHel i Hel.missed).goOffline i :=
  (s.missOne_eq i).trans (if_pos h)

theorem State.miss_missOne : ((s.missOne i).hel i).miss = min 15 ((s.hel i).miss + 1) := by
  have h := s.fixed_missOne i i
  rw [if_pos rfl] at h
  exact (congrArg Hel.miss h :)

/-- From the miss limit on, a heliostat that is not aimed becomes OFFLINE and keeps what it had stranded. -/
theorem State.missOne_of_unaimed (h : s.link.missLimit ≤ min 15 ((s.hel i).miss + 1))
    (hs : (s.hel i).state = .stowed ∨ (s.hel i).state = .standby ∨ (s.hel i).state = .queued) :
    ((s.missOne i).hel i).state = .offline ∧ ((s.missOne i).hel i).stranded = (s.hel i).stranded
      ∧ (s.missOne i).dPending .heliostatOffline = true := by
  have hstate : ((s.modHel i Hel.missed).hel i).state = (s.hel i).state := by rw [State.hel_missed_same]; rfl
  have hidle (hs : (s.hel i).state = .stowed ∨ (s.hel i).state = .standby) :
      ((s.missOne i).hel i).state = .offline ∧ ((s.missOne i).hel i).stranded = (s.hel i).stranded
        ∧ (s.missOne i).dPending .heliostatOffline = true := by
    rw [s.missOne_of_limit i h, State.goOffline_of_idle (by rwa [hstate]), State.raiseD_hel, State.hel_modHel_same,
      State.hel_missed_same]
    exact ⟨rfl, rfl, State.dPending_raiseD _ _⟩
  rcases hs with hs | hs | hs
  · exact hidle (.inl hs)
  · exact hidle (.inr hs)
  · rw [s.missOne_of_limit i h, State.goOffline_of_queued (hstate.trans hs), State.raiseD_hel, State.hel_dequeue, if_pos rfl,
      State.hel_missed_same]
    exact ⟨rfl, rfl, State.dPending_raiseD _ _⟩

/-- From the miss limit on, an ON_TARGET heliostat departs to OFFLINE and strands what it contributed. -/
theorem State.missOne_of_onTarget (h : s.link.missLimit ≤ min 15 ((s.hel i).miss + 1)) (hs : (s.hel i).state = .onTarget) :
    ((s.missOne i).hel i).state = .offline ∧ ((s.missOne i).hel i).departing = true
      ∧ ((s.missOne i).hel i).stranded = some ⟨s.joinZone (s.hel i), s.pEff (s.hel i)⟩
      ∧ ((s.missOne i).zone (s.joinZone (s.hel i))).stranded
          = (s.zone (s.joinZone (s.hel i))).stranded + s.pEff (s.hel i)
      ∧ (s.missOne i).dPending .heliostatOffline = true := by
  have hstate : ((s.modHel i Hel.missed).hel i).state = .onTarget := by rw [State.hel_missed_same]; exact hs
  rw [s.missOne_of_limit i h, State.goOffline_of_onTarget hstate, State.raiseD_hel, State.raiseD_zone, State.hel_departStranding,
    State.zone_departStranding, State.hel_missed_same, if_pos rfl]
  refine ⟨rfl, rfl, rfl, ?_, State.dPending_raiseD _ _⟩
  exact (congrArg Zone.stranded (if_pos rfl) :)

/-- A heliostat that is OFFLINE, FAULTED or EXCLUDED keeps its state. -/
theorem State.missOne_of_kept (hs : (s.hel i).state = .offline ∨ (s.hel i).state = .faulted ∨ (s.hel i).state = .excluded) :
    ((s.missOne i).hel i).state = (s.hel i).state := by
  have hwritten : ((s.modHel i Hel.missed).hel i).state = (s.hel i).state := by rw [State.hel_missed_same]; rfl
  rw [State.missOne_eq]
  split
  · rw [State.goOffline_of_kept (by rw [hwritten]; tauto), hwritten]
  · exact hwritten

/-- A miss raises HELIOSTAT_OFFLINE alone. -/
theorem State.dPending_missOne_eq {e : DEvent} (he : e ≠ .heliostatOffline) : (s.missOne i).dPending e = s.dPending e := by
  have hraised {u : State} (hu : u.offTable = s.offTable) : (u.raiseD .heliostatOffline).dPending e = s.dPending e := by
    rw [State.dPending_raiseD_iff, State.dPending_of_offTable hu, decide_eq_false (fun h => he h.symm), Bool.or_false]
  rw [State.missOne_eq]
  split
  · refine State.goOffline_cases (fun u => u.dPending e = s.dPending e) (fun _ => hraised ?_) (fun _ => hraised ?_)
      (fun _ => hraised ?_) rfl
    · rw [State.departStranding_eq, State.strandAt, State.modHel_offTable, State.modZone_offTable, State.depart,
        State.departFrom_offTable, State.modHel_offTable]
    · rfl
    · rfl
  · rfl

end

/-! ### A wait that ends in a miss (R108) -/

/-- What the miss writes of the record addressed and of the pass counter: nothing for an orphaned frame (R108, R113). -/
def State.missRecord (s : State) (k : Nat) (f : Frame) : State :=
  match f.heliostat with
  | some i =>
    if f.orphaned then s.emptyFrame k
    else ((s.emptyFrame k).missOne i).modSeg k fun g => { g with missed := min 65535 (g.missed + 1) }
  | none => s.emptyFrame k

/-- A segment without its dialogue, its pass counter of misses and its urgent queue. -/
def Seg.offMiss (g : Seg) : Seg := { g with frame := none, missed := 0, urgent := [] }

section
variable (s : State) (k : Nat) (f : Frame)

theorem State.missOutcome_eq : s.missOutcome k f = (s.missRecord k f).dialogueEnd k f.origin f.missResult none := rfl

/-- What a miss leaves unwritten: the rest of its segment, and the part outside the records, their zones and the events. -/
structure MissFrame (s t : State) (k : Nat) : Prop where
  seg : (t.seg k).offMiss = (s.seg k).offMiss
  frame : (t.seg k).frame = none
  rest : t.offRecords = s.offRecords

theorem State.missFrame_missRecord : MissFrame s (s.missRecord k f) k := by
  have hempty : MissFrame s (s.emptyFrame k) k :=
    ⟨(congrArg Seg.offMiss (State.seg_modSeg_same s k fun g => { g with frame := none }) :),
      (congrArg Seg.frame (State.seg_modSeg_same s k fun g => { g with frame := none }) :), rfl⟩
  unfold State.missRecord
  split
  next i _ =>
    split
    · exact hempty
    · have hstill := (s.emptyFrame k).seg_still_missOne i k
      refine ⟨?_, ?_, ((s.emptyFrame k).offRecords_missOne i).trans hempty.rest⟩
      · rw [State.seg_modSeg_same]
        exact (congrArg (fun g : Seg => { g with frame := none, missed := 0 }) hstill :).trans hempty.seg
      · rw [State.seg_modSeg_same]
        exact (congrArg Seg.frame hstill :).trans hempty.frame
  next => exact hempty

theorem State.missRecord_of_orphaned (ho : f.orphaned = true) : s.missRecord k f = s.emptyFrame k := by
  unfold State.missRecord
  split
  · exact if_pos ho
  · rfl

theorem State.missRecord_of_live {i : Nat} (ho : f.orphaned = false) (hi : f.heliostat = some i) :
    s.missRecord k f = ((s.emptyFrame k).missOne i).modSeg k fun g => { g with missed := min 65535 (g.missed + 1) } := by
  rw [State.missRecord, hi, ho]
  rfl

theorem State.missed_missRecord_of_live {i : Nat} (ho : f.orphaned = false) (hi : f.heliostat = some i) :
    ((s.missRecord k f).seg k).missed = min 65535 ((s.seg k).missed + 1) := by
  rw [s.missRecord_of_live k f ho hi, State.seg_modSeg_same]
  have hmissed : (((s.emptyFrame k).missOne i).seg k).missed = ((s.emptyFrame k).seg k).missed :=
    (congrArg Seg.missed ((s.emptyFrame k).seg_still_missOne i k) :)
  rw [hmissed, State.emptyFrame, State.seg_modSeg_same]

theorem State.dPending_missRecord {e : DEvent} (he : e ≠ .heliostatOffline) : (s.missRecord k f).dPending e = s.dPending e := by
  unfold State.missRecord
  split
  next i _ =>
    split
    · rfl
    · exact (s.emptyFrame k).dPending_missOne_eq i he
  next => rfl

theorem Seg.counts_of_offMiss_offRing {g g' : Seg} (h : g'.offMiss.offRing = g.offMiss.offRing) :
    g'.answered = g.answered ∧ g'.crcErrors = g.crcErrors ∧ g'.errorRun = g.errorRun ∧ g'.invertedRun = g.invertedRun
      ∧ g'.inverted = g.inverted ∧ g'.rate = g.rate :=
  ⟨(congrArg Seg.answered h :), (congrArg Seg.crcErrors h :), (congrArg Seg.errorRun h :), (congrArg Seg.invertedRun h :),
    (congrArg Seg.inverted h :), (congrArg Seg.rate h :)⟩

/-- The miss of a wait: its segment's dialogue ends, and the rest of it stands but for pass counter, urgent queue and ring. -/
theorem State.missOutcome_seg : ((s.missOutcome k f).seg k).frame = none
    ∧ (((s.missOutcome k f).seg k).offMiss).offRing = ((s.seg k).offMiss).offRing
    ∧ ((s.missOutcome k f).seg k).missed = ((s.missRecord k f).seg k).missed := by
  obtain ⟨hseg, hframe, -⟩ := s.missFrame_missRecord k f
  have hring := (s.missRecord k f).offRing_dialogueEnd k f.origin f.missResult none
  rw [State.missOutcome_eq]
  generalize ((s.missRecord k f).dialogueEnd k f.origin f.missResult none).seg k = g at hring ⊢
  generalize (s.missRecord k f).seg k = g' at hring hseg hframe ⊢
  refine ⟨(congrArg Seg.frame hring :).trans hframe, ?_, (congrArg Seg.missed hring :)⟩
  exact (congrArg Seg.offMiss hring :).trans (congrArg Seg.offRing hseg :)

theorem State.offRecords_missOutcome : (s.missOutcome k f).offRecords = s.offRecords := by
  rw [State.missOutcome_eq, State.offRecords_dialogueEnd]
  exact (s.missFrame_missRecord k f).rest

/-- A maintenance record is returned with the miss's result. -/
theorem State.recordReturned_missOutcome (ho : f.origin = .maint) :
    RecordReturned (s.seg k) ((s.missOutcome k f).seg k) f.missResult none ∧ (s.missOutcome k f).dPending .maintReturned = true := by
  have hseg := (s.missFrame_missRecord k f).seg
  rw [State.missOutcome_eq, State.dPending_dialogueEnd]
  refine ⟨((s.missRecord k f).recordReturned_dialogueEnd k f.origin f.missResult none ho).congr ?_ ?_ ?_, by simp [ho]⟩
  · exact (congrArg Seg.slots hseg :)
  · exact (congrArg Seg.head hseg :)
  · exact (congrArg Seg.count hseg :)

theorem State.dPending_missOutcome {e : DEvent} (he : e ≠ .heliostatOffline) (hr : e ≠ .maintReturned) :
    (s.missOutcome k f).dPending e = s.dPending e := by
  rw [State.missOutcome_eq, State.dPending_dialogueEnd, State.dPending_missRecord s k f he, decide_eq_false (fun h => hr h.2),
    Bool.or_false]

theorem State.missOutcome_of_orphaned (ho : f.orphaned = true) : (s.missOutcome k f).hels = s.hels
    ∧ (s.missOutcome k f).zones = s.zones ∧ ((s.missOutcome k f).seg k).missed = (s.seg k).missed := by
  rw [(s.missOutcome_seg k f).2.2, State.missOutcome_eq, State.dialogueEnd_hels, State.dialogueEnd_zones,
    s.missRecord_of_orphaned k f ho]
  exact ⟨rfl, rfl, (congrArg Seg.missed (State.seg_modSeg_same s k fun g => { g with frame := none }) :)⟩

/-- The record of a frame that is not orphaned takes one miss, as any miss is taken. -/
theorem State.missOutcome_of_live {i : Nat} (ho : f.orphaned = false) (hi : f.heliostat = some i) :
    (s.missOutcome k f).hels = ((s.emptyFrame k).missOne i).hels ∧ (s.missOutcome k f).zones = ((s.emptyFrame k).missOne i).zones
      ∧ ((s.missOutcome k f).seg k).missed = min 65535 ((s.seg k).missed + 1)
      ∧ (((s.emptyFrame k).missOne i).dPending .heliostatOffline = true → (s.missOutcome k f).dPending .heliostatOffline = true) := by
  rw [(s.missOutcome_seg k f).2.2, s.missed_missRecord_of_live k f ho hi, State.missOutcome_eq, State.dialogueEnd_hels,
    State.dialogueEnd_zones, State.dPending_dialogueEnd, s.missRecord_of_live k f ho hi]
  exact ⟨rfl, rfl, rfl, fun h => Bool.or_eq_true_iff.2 (.inl h)⟩

end

/-- The one miss of a record, told of its record and the zone it was aimed into (R45, R47). -/
theorem State.missOutcome_record (s : State) (k : Nat) {f : Frame} {i : Nat} (ho : f.orphaned = false) (hi : f.heliostat = some i) :
    ((s.missOutcome k f).hel i).miss = min 15 ((s.hel i).miss + 1)
      ∧ (min 15 ((s.hel i).miss + 1) < s.link.missLimit →
          (s.missOutcome k f).hel i = { s.hel i with miss := min 15 ((s.hel i).miss + 1) }
            ∧ (s.missOutcome k f).zones = s.zones)
      ∧ (s.link.missLimit ≤ min 15 ((s.hel i).miss + 1) →
          ((s.hel i).state = .stowed ∨ (s.hel i).state = .standby ∨ (s.hel i).state = .queued →
            ((s.missOutcome k f).hel i).state = .offline ∧ ((s.missOutcome k f).hel i).stranded = (s.hel i).stranded
              ∧ (s.missOutcome k f).dPending .heliostatOffline = true)
          ∧ ((s.hel i).state = .onTarget →
            ((s.missOutcome k f).hel i).state = .offline ∧ ((s.missOutcome k f).hel i).departing = true
              ∧ ((s.missOutcome k f).hel i).stranded = some ⟨s.joinZone (s.hel i), s.pEff (s.hel i)⟩
              ∧ ((s.missOutcome k f).zone (s.joinZone (s.hel i))).stranded
                  = (s.zone (s.joinZone (s.hel i))).stranded + s.pEff (s.hel i)
              ∧ (s.missOutcome k f).dPending .heliostatOffline = true)
          ∧ ((s.hel i).state = .offline ∨ (s.hel i).state = .faulted ∨ (s.hel i).state = .excluded →
            ((s.missOutcome k f).hel i).state = (s.hel i).state))
      ∧ (∀ j, j ≠ i → (s.missOutcome k f).hel j = s.hel j) := by
  obtain ⟨hhels, hzones, -, hoffline⟩ := s.missOutcome_of_live k f ho hi
  have hhel j : (s.missOutcome k f).hel j = ((s.emptyFrame k).missOne i).hel j := congrArg (Tab.get Hel.empty · j) hhels
  have hzone z : (s.missOutcome k f).zone z = ((s.emptyFrame k).missOne i).zone z := congrArg (Tab.get Zone.reset · z) hzones
  rw [hhel i]
  refine ⟨(s.emptyFrame k).miss_missOne i, fun hbelow => ?_, fun hlimit => ⟨fun hs => ?_, fun hs => ?_, fun hs => ?_⟩, fun j hj => ?_⟩
  · rw [hzones, (s.emptyFrame k).missOne_of_below i hbelow]
    exact ⟨(s.emptyFrame k).hel_missed_same i, rfl⟩
  · obtain ⟨hstate, hstranded, hraised⟩ := (s.emptyFrame k).missOne_of_unaimed i hlimit hs
    exact ⟨hstate, hstranded, hoffline hraised⟩
  · obtain ⟨hstate, hdeparting, hstranded, hflux, hraised⟩ := (s.emptyFrame k).missOne_of_onTarget i hlimit hs
    exact ⟨hstate, hdeparting, hstranded, (congrArg Zone.stranded (hzone _) :).trans hflux, hoffline hraised⟩
  · exact (s.emptyFrame k).missOne_of_kept i hs
  · exact (hhel j).trans ((s.emptyFrame k).hel_missOne_of_ne i hj)

/-! ### O44 -/

theorem exec_replyTimeout {s : State} {k : Fin 8} {f : Frame} (hframe : (s.seg k).frame = some f) (hphase : f.phase = .awaiting)
    (hhunting : f.receiving = false) : exec (.replyTimeout k) s
      = .next ((s.elapse (f.remaining / 1000)).missOutcome k { f with remaining := 0 }) := by
  rw [show exec (.replyTimeout k) s = execReplyTimeout k s from rfl, execReplyTimeout, hframe]
  dsimp only
  rw [if_pos ⟨hphase, hhunting⟩]

/-- Settles O44: the miss of section 5.6, once the time left of the wait has passed. -/
theorem replyTimeout : Obligations.ReplyTimeout := by
  unfold Obligations.ReplyTimeout
  intro s k f hframe hphase hhunting
  obtain ⟨hended, hseg, hmissed⟩ := (s.elapse (f.remaining / 1000)).missOutcome_seg k { f with remaining := 0 }
  have hrest := (s.elapse (f.remaining / 1000)).offRecords_missOutcome k { f with remaining := 0 }
  have hsegs : (s.elapse (f.remaining / 1000)).seg k = (s.seg k).elapse (f.remaining / 1000) := State.seg_elapse _ _ k.isLt
  refine ⟨_, exec_replyTimeout hframe hphase hhunting, hended, ?_, fun ho => ?_, ?_, fun ho hcount => ?_, fun j => ?_, ?_⟩
  · rw [hsegs] at hseg
    exact (Seg.counts_of_offMiss_offRing hseg).1
  · obtain ⟨hhels, hzones, hcounter⟩ := (s.elapse (f.remaining / 1000)).missOutcome_of_orphaned k { f with remaining := 0 } ho
    rw [hsegs] at hcounter
    exact ⟨hhels, hzones, hcounter⟩
  · rintro i h ho hi rfl
    obtain ⟨-, -, hcounter, -⟩ := (s.elapse (f.remaining / 1000)).missOutcome_of_live k { f with remaining := 0 } ho hi
    refine ⟨hcounter.trans ?_, (s.elapse (f.remaining / 1000)).missOutcome_record k ho hi⟩
    rw [hsegs]
    rfl
  · obtain ⟨hreturned, hraised⟩ := (s.elapse (f.remaining / 1000)).recordReturned_missOutcome k { f with remaining := 0 } ho
    have hresult : Frame.missResult { f with remaining := 0 } = .noReply := if_neg fun h => by
      have : f.receptions = 4 := h.1
      omega
    rw [hresult, hsegs] at hreturned
    exact ⟨hraised, hreturned.congr rfl rfl rfl⟩
  · exact (State.timer_of_offRecords hrest j).trans (State.timer_elapse s (f.remaining / 1000) j.isLt)
  · obtain ⟨hms, hsweep, hscu, hlink, -⟩ := State.rest_of_offRecords hrest
    exact ⟨State.sun_of_offRecords (u := s.elapse (f.remaining / 1000)) hrest, hsweep, hscu, hlink, hms⟩

/-! ### A reception counted (R105, R108) -/

/-- A wait whose reception did not end the dialogue. -/
def Frame.heard (f : Frame) (corrupt : Bool) : Frame :=
  { f with receptions := f.receptions + 1, fresh := true, receiving := false, corruptSeen := f.corruptSeen || corrupt }

section
variable (s : State) (k : Nat) (f : Frame) (corrupt : Bool)

theorem State.countReception_eq : s.countReception k f corrupt =
    if 4 ≤ f.receptions + 1 then s.missOutcome k (f.heard corrupt)
    else s.modSeg k fun g => { g with frame := some (f.heard corrupt) } :=
  rfl

theorem State.countReception_of_short (h : f.receptions < 3) :
    s.countReception k f corrupt = s.modSeg k fun g => { g with frame := some (f.heard corrupt) } :=
  if_neg (by simp only; omega)

theorem State.countReception_of_fourth (h : f.receptions = 3) : s.countReception k f corrupt = s.missOutcome k (f.heard corrupt) :=
  if_pos (by simp only; omega)

theorem Frame.missResult_heard (h : f.receptions = 3) :
    (f.heard corrupt).missResult = if f.corruptSeen || corrupt then .crcFail else .noReply := by
  simp [Frame.missResult, Frame.heard, h]

theorem receptionCounted_countReception : ReceptionCounted s (s.countReception k f corrupt) k f corrupt := by
  refine ⟨fun hshort => ?_, fun hfourth => ?_⟩
  · rw [State.countReception_of_short s k f corrupt hshort, State.seg_modSeg_same]
    exact ⟨rfl, rfl, rfl, rfl⟩
  · rw [State.countReception_of_fourth s k f corrupt hfourth]
    obtain ⟨hended, -, -⟩ := s.missOutcome_seg k (f.heard corrupt)
    refine ⟨hended, fun ho => ?_, fun i ho hi => ?_, fun ho => ?_⟩
    · obtain ⟨hhels, -, hmissed⟩ := s.missOutcome_of_orphaned k (f.heard corrupt) ho
      exact ⟨hhels, hmissed⟩
    · obtain ⟨-, -, hmissed, -⟩ := s.missOutcome_of_live k (f.heard corrupt) ho hi
      obtain ⟨hmiss, -, -, hothers⟩ := s.missOutcome_record k (f := f.heard corrupt) ho hi
      exact ⟨hmiss, hmissed, hothers⟩
    · obtain ⟨hreturned, hraised⟩ := s.recordReturned_missOutcome k (f.heard corrupt) ho
      rw [Frame.missResult_heard f corrupt hfourth] at hreturned
      exact ⟨hraised, hreturned⟩

/-- The count leaves the figures of the line. -/
theorem State.seg_countReception : ((s.countReception k f corrupt).seg k).offMiss.offRing = (s.seg k).offMiss.offRing := by
  rw [State.countReception_eq]
  split
  · exact (s.missOutcome_seg k (f.heard corrupt)).2.1
  · rw [State.seg_modSeg_same]
    rfl

theorem State.dPending_countReception {e : DEvent} (he : e ≠ .heliostatOffline) (hr : e ≠ .maintReturned) :
    (s.countReception k f corrupt).dPending e = s.dPending e := by
  rw [State.countReception_eq]
  split
  · exact s.dPending_missOutcome k _ he hr
  · rfl

end

/-- A reception counted after figures of the line were written. -/
theorem ReceptionCounted.congr {s u t : State} {k : Nat} {f : Frame} {corrupt : Bool} (h : ReceptionCounted u t k f corrupt)
    (hhels : u.hels = s.hels) (hzones : u.zones = s.zones) (hmissed : (u.seg k).missed = (s.seg k).missed)
    (hslots : (u.seg k).slots = (s.seg k).slots) (hhead : (u.seg k).head = (s.seg k).head)
    (hcount : (u.seg k).count = (s.seg k).count) : ReceptionCounted s t k f corrupt := by
  obtain ⟨hshort, hfourth⟩ := h
  have hhel i : u.hel i = s.hel i := State.hel_congr hhels i
  refine ⟨fun h => ?_, fun h => ?_⟩
  · obtain ⟨h1, h2, h3, h4⟩ := hshort h
    exact ⟨h1.trans hhels, h2.trans hzones, h3.trans hmissed, h4⟩
  · obtain ⟨hended, horphaned, hlive, hmaint⟩ := hfourth h
    refine ⟨hended, fun ho => ?_, fun i ho hi => ?_, fun ho => ?_⟩
    · obtain ⟨h1, h2⟩ := horphaned ho
      exact ⟨h1.trans hhels, h2.trans hmissed⟩
    · obtain ⟨h1, h2, h3⟩ := hlive i ho hi
      rw [hhel] at h1
      rw [hmissed] at h2
      exact ⟨h1, h2, fun j hj => (h3 j hj).trans (hhel j)⟩
    · obtain ⟨hraised, hreturned⟩ := hmaint ho
      exact ⟨hraised, hreturned.congr hslots hhead hcount⟩

/-! ### A reception written and counted (R105 to R107, R134 to R136) -/

/-- A write of the line's figures that leaves the wait, the pass counter, the ring and everything outside the segment. -/
structure LineWrite (s u : State) (k : Nat) : Prop where
  others : ∀ j, j ≠ k → u.seg j = s.seg j
  rest : { u with segs := s.segs, devents := s.devents } = s
  missed : (u.seg k).missed = (s.seg k).missed
  slots : (u.seg k).slots = (s.seg k).slots
  head : (u.seg k).head = (s.seg k).head
  count : (u.seg k).count = (s.seg k).count

namespace LineWrite
variable {s u : State} {k : Nat}

theorem modSeg (f : Seg → Seg) (hf : ∀ g : Seg, (f g).missed = g.missed ∧ (f g).slots = g.slots ∧ (f g).head = g.head
    ∧ (f g).count = g.count) (h : LineWrite s u k) : LineWrite s (u.modSeg k f) k := by
  obtain ⟨hmissed, hslots, hhead, hcount⟩ := hf (u.seg k)
  have hseg := State.seg_modSeg_same u k f
  exact ⟨fun j hj => ((State.seg_modSeg u k j f).trans (if_neg hj)).trans (h.others j hj), h.rest,
    by rw [hseg, hmissed, h.missed], by rw [hseg, hslots, h.slots], by rw [hseg, hhead, h.head], by rw [hseg, hcount, h.count]⟩

theorem raiseD (e : DEvent) (h : LineWrite s u k) : LineWrite s (u.raiseD e) k :=
  ⟨h.others, h.rest, h.missed, h.slots, h.head, h.count⟩

theorem refl : LineWrite s s k := ⟨fun _ _ => rfl, rfl, rfl, rfl, rfl, rfl⟩

/-- The reception is counted of the state it found. -/
theorem counted (h : LineWrite s u k) (f : Frame) (corrupt : Bool) : ReceptionCounted s (u.countReception k f corrupt) k f corrupt := by
  have hhels : u.hels = s.hels := (congrArg (fun v : State => v.hels) h.rest :)
  have hzones : u.zones = s.zones := (congrArg (fun v : State => v.zones) h.rest :)
  exact (receptionCounted_countReception u k f corrupt).congr hhels hzones h.missed h.slots h.head h.count

/-- While the wait goes on no record and no other segment changes. -/
theorem counted_rest (h : LineWrite s u k) {f : Frame} (corrupt : Bool) (hshort : f.receptions < 3) :
    (∀ j, j ≠ k → (u.countReception k f corrupt).seg j = s.seg j)
      ∧ { u.countReception k f corrupt with segs := s.segs, devents := s.devents } = s := by
  rw [State.countReception_of_short u k f corrupt hshort]
  exact ⟨fun j hj => ((State.seg_modSeg u k j _).trans (if_neg hj)).trans (h.others j hj), h.rest⟩

end LineWrite

section
variable (s : State) (k : Nat) (f : Frame)

theorem lineWrite_corruptCounters : LineWrite s (s.corruptCounters k) k := by
  have hcounted : LineWrite s (s.modSeg k fun g => { g with crcErrors := min 65535 (g.crcErrors + 1), invertedRun := 0 }) k :=
    LineWrite.refl.modSeg _ fun _ => ⟨rfl, rfl, rfl, rfl⟩
  unfold State.corruptCounters
  dsimp only
  split
  · have hfallen := hcounted.modSeg (fun g => { g with errorRun := 0, rate := g.rate.down }) fun _ => ⟨rfl, rfl, rfl, rfl⟩
    split
    · exact hfallen
    · exact hfallen.raiseD _
  · exact hcounted.modSeg _ fun _ => ⟨rfl, rfl, rfl, rfl⟩

theorem corruptCounted_corruptCounters : CorruptCounted s (s.corruptCounters k) k := by
  have hdown : (s.seg k).rate.down = (match (s.seg k).rate with | .fast => .medium | .medium => .slow | .slow => .slow) := by
    cases (s.seg k).rate <;> rfl
  unfold State.corruptCounters
  dsimp only
  split
  next hrun =>
    have hlow : ¬ (s.seg k).errorRun < 7 := by omega
    split
    next hslow =>
      rw [CorruptCounted, State.seg_modSeg_same, State.seg_modSeg_same]
      exact ⟨rfl, rfl, rfl, fun h => absurd h hlow, fun _ => ⟨rfl, hdown, fun h => absurd hslow h⟩, fun _ => rfl⟩
    next hfast =>
      rw [CorruptCounted, State.raiseD_seg, State.seg_modSeg_same, State.seg_modSeg_same]
      exact ⟨rfl, rfl, rfl, fun h => absurd h hlow, fun _ => ⟨rfl, hdown, fun _ => State.dPending_raiseD _ _⟩,
        fun h => (h.elim hlow hfast).elim⟩
  next hrun =>
    rw [CorruptCounted, State.seg_modSeg_same, State.seg_modSeg_same]
    exact ⟨rfl, rfl, rfl, fun _ => ⟨rfl, rfl⟩, fun h => by omega, fun _ => rfl⟩

theorem CorruptCounted.congr {s u t : State} {k : Nat} (h : CorruptCounted s u k)
    (hseg : (t.seg k).offMiss.offRing = (u.seg k).offMiss.offRing) (he : t.dPending .rateFallback = u.dPending .rateFallback) :
    CorruptCounted s t k := by
  obtain ⟨-, hcrc, hrun, hinverted, hlatch, hrate⟩ := Seg.counts_of_offMiss_offRing hseg
  rwa [CorruptCounted, hcrc, hrun, hinverted, hlatch, hrate, he]

/-- A corrupt reception: counted on the line and of the wait, and while the wait goes on nothing else changes. -/
theorem corruptReception_counts : CorruptCounted s (s.corruptReception k f) k ∧ ReceptionCounted s (s.corruptReception k f) k f true
    ∧ (f.receptions < 3 → (∀ j, j ≠ k → (s.corruptReception k f).seg j = s.seg j)
        ∧ { s.corruptReception k f with segs := s.segs, devents := s.devents } = s) := by
  have hline := lineWrite_corruptCounters s k
  refine ⟨(corruptCounted_corruptCounters s k).congr (State.seg_countReception _ k f true) ?_, hline.counted f true,
    hline.counted_rest true⟩
  exact State.dPending_countReception _ k f true DEvent.noConfusion DEvent.noConfusion

/-- A stale reply counts nothing of the line, and ends the inverted run (R106). -/
theorem staleReply_counts : ReceptionCounted s (s.staleReply k f) k f false
    ∧ ((s.staleReply k f).seg k).crcErrors = (s.seg k).crcErrors ∧ ((s.staleReply k f).seg k).errorRun = (s.seg k).errorRun
    ∧ ((s.staleReply k f).seg k).invertedRun = 0 ∧ (f.receptions < 3 → { s.staleReply k f with segs := s.segs } = s) := by
  have hline : LineWrite s (s.modSeg k fun g => { g with invertedRun := 0 }) k :=
    LineWrite.refl.modSeg _ fun _ => ⟨rfl, rfl, rfl, rfl⟩
  obtain ⟨-, hcrc, hrun, hinverted, -⟩ := Seg.counts_of_offMiss_offRing
    (State.seg_countReception (s.modSeg k fun g => { g with invertedRun := 0 }) k f false)
  rw [State.seg_modSeg_same] at hcrc hrun hinverted
  refine ⟨hline.counted f false, hcrc, hrun, hinverted, fun hshort => ?_⟩
  rw [State.staleReply, State.countReception_of_short _ k f false hshort]
  rfl

/-- A qualifying inverted reception (R134); the fourth in a row sets the latch and raises POLARITY_INVERTED (R135). -/
theorem qualifyingInverted_counts (hlatch : (s.seg k).inverted = false) :
    ReceptionCounted s (s.qualifyingInverted k f) k f false
    ∧ ((s.qualifyingInverted k f).seg k).crcErrors = (s.seg k).crcErrors
    ∧ ((s.qualifyingInverted k f).seg k).errorRun = (s.seg k).errorRun
    ∧ ((s.seg k).invertedRun < 3 → ((s.qualifyingInverted k f).seg k).inverted = false
        ∧ ((s.qualifyingInverted k f).seg k).invertedRun = (s.seg k).invertedRun + 1)
    ∧ (3 ≤ (s.seg k).invertedRun → ((s.qualifyingInverted k f).seg k).inverted = true
        ∧ ((s.qualifyingInverted k f).seg k).invertedRun = 0 ∧ (s.qualifyingInverted k f).dPending .polarityInverted = true)
    ∧ (f.receptions < 3 → { s.qualifyingInverted k f with segs := s.segs, devents := s.devents } = s) := by
  unfold State.qualifyingInverted
  dsimp only
  split
  next hfourth =>
    have hline : LineWrite s ((s.modSeg k fun g => { g with inverted := true, invertedRun := 0 }).raiseD .polarityInverted) k :=
      LineWrite.raiseD _ (LineWrite.modSeg (fun g => { g with inverted := true, invertedRun := 0 })
        (fun _ => ⟨rfl, rfl, rfl, rfl⟩) .refl)
    have hraised := (s.modSeg k fun g => { g with inverted := true, invertedRun := 0 }).dPending_raiseD .polarityInverted
    have hseg : ((s.modSeg k fun g => { g with inverted := true, invertedRun := 0 }).raiseD .polarityInverted).seg k
        = { s.seg k with inverted := true, invertedRun := 0 } :=
      State.seg_modSeg_same s k fun g => { g with inverted := true, invertedRun := 0 }
    generalize (s.modSeg k fun g => { g with inverted := true, invertedRun := 0 }).raiseD .polarityInverted = u
      at hline hraised hseg ⊢
    obtain ⟨-, hcrc, hrun, hinverted, hset, -⟩ := Seg.counts_of_offMiss_offRing (u.seg_countReception k f false)
    rw [hseg] at hcrc hrun hinverted hset
    exact ⟨hline.counted f false, hcrc, hrun, fun h => absurd h (by omega),
      fun _ => ⟨hset, hinverted, (u.dPending_countReception k f false DEvent.noConfusion DEvent.noConfusion).trans hraised⟩,
      fun hshort => (hline.counted_rest false hshort).2⟩
  next hshorter =>
    have hline : LineWrite s (s.modSeg k fun g => { g with invertedRun := (s.seg k).invertedRun + 1 }) k :=
      LineWrite.refl.modSeg _ fun _ => ⟨rfl, rfl, rfl, rfl⟩
    obtain ⟨-, hcrc, hrun, hinverted, hset, -⟩ := Seg.counts_of_offMiss_offRing
      (State.seg_countReception (s.modSeg k fun g => { g with invertedRun := (s.seg k).invertedRun + 1 }) k f false)
    rw [State.seg_modSeg_same] at hcrc hrun hinverted hset
    exact ⟨hline.counted f false, hcrc, hrun, fun _ => ⟨hset.trans hlatch, hinverted⟩, fun h => absurd h (by omega),
      fun hshort => (hline.counted_rest false hshort).2⟩

end

/-! ### The classification (R104, R105) -/

section
variable {s : State} {k : Fin 8} {f : Frame} {bytes body : List Byte} {r : ReplyFields}

theorem exec_receptionComplete (hframe : (s.seg k).frame = some f) (hphase : f.phase = .awaiting) (hbegun : f.receiving = true)
    (bytes : List Byte) : exec (.receptionComplete k bytes) s = .next (s.classify k f bytes) := by
  rw [show exec (.receptionComplete k bytes) s = execReceptionComplete k bytes s from rfl, execReceptionComplete, hframe]
  dsimp only
  rw [if_pos ⟨hphase, hbegun⟩]

theorem exec_receptionBroken (hframe : (s.seg k).frame = some f) (hphase : f.phase = .awaiting) (hbegun : f.receiving = true) :
    exec (.receptionBroken k) s = .next (s.corruptReception k f) := by
  rw [show exec (.receptionBroken k) s = execReceptionBroken k s from rfl, execReceptionBroken, hframe]
  dsimp only
  rw [if_pos ⟨hphase, hbegun⟩]

/-- While hunting neither row has an effect. -/
theorem exec_reception_of_hunting (hframe : (s.seg k).frame = some f) (hhunting : f.receiving = false) :
    exec (.receptionBroken k) s = .next s ∧ ∀ bytes, exec (.receptionComplete k bytes) s = .next s := by
  have hidle : ¬ (f.phase = .awaiting ∧ f.receiving = true) := fun h => Bool.noConfusion (hhunting.symm.trans h.2)
  refine ⟨?_, fun bytes => ?_⟩
  · rw [show exec (.receptionBroken k) s = execReceptionBroken k s from rfl, execReceptionBroken, hframe]
    dsimp only
    rw [if_neg hidle]
  · rw [show exec (.receptionComplete k bytes) s = execReceptionComplete k bytes s from rfl, execReceptionComplete, hframe]
    dsimp only
    rw [if_neg hidle]

/-- A reception of the polarity the latch expects is checked by its fields. -/
theorem State.classify_of_plain (hbytes : bytes.map (s.seg k).receive = 0x7E :: 0xA5 :: body
      ∨ ((s.seg k).inverted = true ∧ bytes.map (s.seg k).receive = 0x81 :: 0x5A :: body)) (hr : replyFields body = some r) :
    s.classify k f bytes = if !r.sound then s.corruptReception k f
      else if !r.answers f then s.staleReply k f else s.goodReply k f r.reply := by
  rcases hbytes with hbytes | ⟨hlatch, hbytes⟩
  · rw [State.classify, hbytes]
    dsimp only
    rw [show (s.seg k).receptionKind 0x7E 0xA5 = .plain from rfl]
    dsimp only
    rw [hr]
  · rw [State.classify, hbytes]
    dsimp only
    rw [show (s.seg k).receptionKind 0x81 0x5A = .plain by simp [Seg.receptionKind, hlatch]]
    dsimp only
    rw [hr]

/-- An inverted reception while the latch is NORMAL is judged by its complement (R134). -/
theorem State.classify_of_inverted (hlatch : (s.seg k).inverted = false) (hbytes : bytes = 0x81 :: 0x5A :: body)
    (hr : replyFields (body.map (~~~·)) = some r) :
    s.classify k f bytes = if r.sound then s.qualifyingInverted k f else s.corruptReception k f := by
  have hreceive (b : Byte) : (s.seg k).receive b = b := by rw [Seg.receive, hlatch]; rfl
  rw [State.classify, List.map_congr_left (g := id) fun b _ => hreceive b, List.map_id, hbytes]
  dsimp only
  rw [show (s.seg k).receptionKind 0x81 0x5A = .inverted by simp [Seg.receptionKind, hlatch]]
  dsimp only
  rw [hr]

end

/-! ### The frame check of a complemented reply is false (R101, R135) -/

/-- The CRC register's shift is linear. -/
theorem crcShift_xor (a b : BitVec 16) : crcShift (a ^^^ b) = crcShift a ^^^ crcShift b := by
  have hshift : (a ^^^ b) <<< 1 = a <<< 1 ^^^ b <<< 1 := BitVec.shiftLeft_xor_distrib a b 1
  rw [crcShift, crcShift, crcShift, hshift, BitVec.msb_xor]
  cases a.msb with
  | false => cases b.msb with
    | false => rfl
    | true => exact BitVec.xor_assoc _ _ _
  | true => cases b.msb with
    | false =>
      change a <<< 1 ^^^ b <<< 1 ^^^ 0x8BB7#16 = a <<< 1 ^^^ 0x8BB7#16 ^^^ b <<< 1
      ac_rfl
    | true =>
      change a <<< 1 ^^^ b <<< 1 = a <<< 1 ^^^ 0x8BB7#16 ^^^ (b <<< 1 ^^^ 0x8BB7#16)
      rw [BitVec.xor_comm (b <<< 1), BitVec.xor_assoc, ← BitVec.xor_assoc 0x8BB7#16, BitVec.xor_self, BitVec.zero_xor]

theorem foldl_crcShift_xor (l : List Nat) (a b : BitVec 16) :
    l.foldl (fun r _ => crcShift r) (a ^^^ b) = l.foldl (fun r _ => crcShift r) a ^^^ l.foldl (fun r _ => crcShift r) b := by
  induction l generalizing a b with
  | nil => rfl
  | cons x l ih => rw [List.foldl_cons, crcShift_xor, ih, List.foldl_cons, List.foldl_cons]

theorem crcByte_xor (a b : BitVec 16) (x y : Byte) : crcByte (a ^^^ b) (x ^^^ y) = crcByte a x ^^^ crcByte b y := by
  rw [crcByte, crcByte, crcByte, ← foldl_crcShift_xor]
  congr 1
  rw [BitVec.setWidth_xor, BitVec.shiftLeft_xor_distrib]
  ac_rfl

/-- Complemented bytes: the register takes the difference that as many bytes 0xFF make. -/
theorem foldl_crcByte_not (l : List Byte) (a m : BitVec 16) : (l.map (~~~·)).foldl crcByte (a ^^^ m)
    = l.foldl crcByte a ^^^ (l.map fun _ => (0xFF : Byte)).foldl crcByte m := by
  induction l generalizing a m with
  | nil => rfl
  | cons x l ih =>
    have hnot : ~~~x = x ^^^ 0xFF := by rw [← BitVec.allOnes_xor, BitVec.xor_comm]; rfl
    rw [List.map_cons, List.foldl_cons, hnot, crcByte_xor, ih]
    rfl

theorem foldl_crcByte_ones : (List.replicate 10 (0xFF : Byte)).foldl crcByte 0 = 51312#16 := by
  simp [crcByte, crcShift, show List.range 8 = [0, 1, 2, 3, 4, 5, 6, 7] from rfl, BitVec.msb_eq_decide]

/-- Ten bytes and their complement have CRCs that are not each other's complement. -/
theorem crc_not_ne {l : List Byte} (hl : l.length = 10) : crc (l.map (~~~·)) ≠ ~~~ crc l := by
  have hdiff : (l.map fun _ => (0xFF : Byte)) = List.replicate 10 0xFF := by rw [List.map_const', hl]
  have hcrc : crc (l.map (~~~·)) = crc l ^^^ (List.replicate 10 0xFF).foldl crcByte 0 := by
    have h := foldl_crcByte_not l 0xFFFF 0
    rwa [hdiff] at h
  rw [hcrc, foldl_crcByte_ones, ← BitVec.allOnes_xor, BitVec.xor_comm _ (crc l)]
  intro h
  exact absurd ((BitVec.xor_right_inj _).1 h) (by decide)

/-- A reply of true check read through the wrong polarity has a false one. -/
theorem replyFields_not {body : List Byte} {r : ReplyFields} (hr : replyFields body = some r) (hok : r.crcOk = true) :
    ∃ r', replyFields (body.map (~~~·)) = some r' ∧ r'.crcOk = false := by
  unfold replyFields at hr
  split at hr
  next d k m f x1 x0 y1 y0 z1 z0 c1 c0 =>
    cases hr
    refine ⟨_, rfl, ?_⟩
    have hcheck : crc [d, k, m, f, x1, x0, y1, y0, z1, z0] = c1 ++ c0 := eq_of_beq hok
    have hne := crc_not_ne (l := [d, k, m, f, x1, x0, y1, y0, z1, z0]) rfl
    rw [hcheck, BitVec.not_append] at hne
    exact beq_eq_false_iff_ne.2 hne
  next => cases hr

theorem motionOf_eq_none {n : Nat} (h : n = 0 ∨ 4 < n) : motionOf n = none := by
  match n, h with
  | 0, _ => rfl
  | n + 5, _ => rfl

/-- A false check, or a motion or fault byte out of range, makes a reply unsound (R105, cases 2 and 3). -/
theorem ReplyFields.sound_eq_false {r : ReplyFields}
    (h : r.crcOk = false ∨ r.seqMotion.toNat / 16 = 0 ∨ 4 < r.seqMotion.toNat / 16 ∨ 15 < r.fault.toNat) : r.sound = false := by
  have hmotion (hm : r.seqMotion.toNat / 16 = 0 ∨ 4 < r.seqMotion.toNat / 16) : r.motion.isSome = false := by
    rw [ReplyFields.motion, motionOf_eq_none hm]
    rfl
  rw [ReplyFields.sound]
  rcases h with h | h | h | h
  · rw [h]; rfl
  · rw [hmotion (.inl h), Bool.and_false]; rfl
  · rw [hmotion (.inr h), Bool.and_false]; rfl
  · rw [decide_eq_false (Nat.not_le.2 h), Bool.and_false]

/-- Settles O43: every reception a marker began and that is no answer, by the case of R105 that applies. -/
theorem badReceptions : Obligations.BadReceptions := by
  unfold Obligations.BadReceptions
  intro s k f hframe hphase
  refine ⟨exec_reception_of_hunting hframe, fun hbegun => ⟨?_, fun bytes body r hbytes hr => ?_, fun bytes body r hlatch hbytes hr hok => ?_,
    fun bytes body r hlatch hbytes hr => ?_⟩⟩
  · exact ⟨_, exec_receptionBroken hframe hphase hbegun, corruptReception_counts s k f⟩
  · refine ⟨_, exec_receptionComplete hframe hphase hbegun bytes, fun hsound hanswers => ?_, fun hbad => ?_⟩
    · rw [State.classify_of_plain hbytes hr, hsound, hanswers]
      exact staleReply_counts s k f
    · have hunsound : r.sound = false := ReplyFields.sound_eq_false hbad
      obtain ⟨hcorrupt, hcounted, hrest⟩ := corruptReception_counts s k f
      rw [State.classify_of_plain hbytes hr, hunsound]
      exact ⟨hcorrupt, hcounted, fun h => (hrest h).2⟩
  · obtain ⟨r', hr', hok'⟩ := replyFields_not hr hok
    have hreceive : (s.seg k).receive = (~~~·) := by
      funext b
      rw [Seg.receive, hlatch]
      rfl
    have hunsound : r'.sound = false := by rw [ReplyFields.sound, hok']; rfl
    obtain ⟨hcorrupt, hcounted, hrest⟩ := corruptReception_counts s k f
    refine ⟨_, exec_receptionComplete hframe hphase hbegun bytes, ?_⟩
    rw [State.classify_of_plain (.inr ⟨hlatch, by rw [hbytes, hreceive]; rfl⟩) hr', hunsound]
    exact ⟨hcorrupt, hcounted, fun h => (hrest h).2⟩
  · refine ⟨_, exec_receptionComplete hframe hphase hbegun bytes, fun hsound => ?_, fun hsound => ?_⟩
    · rw [State.classify_of_inverted hlatch hbytes hr, hsound]
      exact qualifyingInverted_counts s k f hlatch
    · obtain ⟨hcorrupt, hcounted, hrest⟩ := corruptReception_counts s k f
      rw [State.classify_of_inverted hlatch hbytes hr, hsound]
      exact ⟨hcorrupt, hcounted, fun h => (hrest h).2⟩

end Sys2Proof.Machine
end

section
/-! PROOFS. A good reply applied to its record (R43 to R47, R62, R109 to R112). -/

-- One proof after another: begun all at once, the proofs of the whole text outgrow the check's memory.
set_option Elab.async false

namespace Sys2Proof.Machine

/-! ### What a reply reports, and the departure it acknowledges -/

/-- A record that took the drive status of a reply (R109, step 1). -/
def Hel.reported (h : Hel) (r : GoodReply) : Hel :=
  { h with nRep := some r.normal, motion := r.motion, fault := r.fault, miss := 0 }

/-- A record whose departure is acknowledged (R112): an OFFLINE one's stranded amount is released with it. -/
def Hel.acknowledged (h : Hel) : Hel :=
  { h with
      departing := false
      departureZone := none
      stranded := if h.state = .offline then none else h.stranded }

/-- A frame built for an off-receiver target (R62). -/
def offFrameTarget (target : Option Target) : Bool :=
  match target with
  | some t => t.offReceiver
  | none => false

/-- The reply acknowledges a departure (R62). -/
def State.acknowledges (s : State) (i : Nat) (target : Option Target) (r : GoodReply) : Bool :=
  (s.hel i).departing && r.fault == 0 && offFrameTarget target

/-- Steps 1 and 2 of R109. -/
def State.reported (s : State) (i : Nat) (target : Option Target) (r : GoodReply) : State :=
  (s.driveStatus i r).acknowledgeReply i target r

/-- A record after steps 1 and 2 of R109. -/
def Hel.taken (h : Hel) (r : GoodReply) (acked : Bool) : Hel := if acked then (h.reported r).acknowledged else h.reported r

theorem offFrameTarget_iff (target : Option Target) :
    offFrameTarget target = true ↔ target = some .stow ∨ ∃ n, target = some (.point n) ∧ 96 ≤ n := by
  match target with
  | none => simp [offFrameTarget]
  | some .stow => simp [offFrameTarget, Target.offReceiver]
  | some (.point n) => simp [offFrameTarget, Target.offReceiver]

section
variable (s : State) (i : Nat) (target : Option Target) (r : GoodReply)

theorem State.applyReply_eq (f : Frame) : s.applyReply i f r = (s.reported i f.target r).consequences i f.normal r := rfl

theorem State.reported_of_unacknowledged (h : s.acknowledges i target r = false) : s.reported i target r = s.driveStatus i r := by
  have hhel : ((s.driveStatus i r).hel i).departing = (s.hel i).departing := (congrArg Hel.departing (State.hel_modHel_same s i _) :)
  refine if_neg ?_
  rw [hhel]
  exact Bool.not_eq_true _ ▸ h

theorem State.reported_of_acknowledged (h : s.acknowledges i target r = true) : s.reported i target r =
    if (s.hel i).state = .offline then ((s.driveStatus i r).clearDeparture i).releaseFlux i
    else (s.driveStatus i r).clearDeparture i := by
  have hhel : (s.driveStatus i r).hel i = (s.hel i).reported r := State.hel_modHel_same s i _
  refine (if_pos ?_).trans ?_
  · rw [hhel]
    exact h
  · rw [hhel]
    rfl

theorem State.reported_eq : s.reported i target r =
    { s with hels := (s.reported i target r).hels, zones := (s.reported i target r).zones } := by
  have hclear := (s.driveStatus i r).clearDeparture_eq i
  by_cases h : s.acknowledges i target r = true
  · rw [s.reported_of_acknowledged i target r h]
    split
    · have hrelease := ((s.driveStatus i r).clearDeparture i).releaseFlux_eq i
      rw [hclear] at hrelease ⊢
      exact hrelease
    · exact hclear
  · rw [s.reported_of_unacknowledged i target r (Bool.eq_false_iff.2 h)]
    rfl

theorem State.hel_driveStatus (j : Nat) : (s.driveStatus i r).hel j = if j = i then (s.hel i).reported r else s.hel j :=
  State.hel_modHel _ _ _ _

theorem State.departing_of_acknowledges (h : s.acknowledges i target r = true) : (s.hel i).departing = true := by
  rw [State.acknowledges, Bool.and_eq_true, Bool.and_eq_true] at h
  exact h.1.1

theorem State.hel_driveStatus_clearDeparture (h : s.acknowledges i target r = true) (j : Nat) :
    ((s.driveStatus i r).clearDeparture i).hel j =
      if j = i then { (s.hel i).reported r with departing := false, departureZone := none } else s.hel j := by
  have hsame : (s.driveStatus i r).hel i = (s.hel i).reported r := (s.hel_driveStatus i r i).trans (if_pos rfl)
  rw [State.hel_clearDeparture, hsame]
  by_cases hj : j = i
  · rw [if_pos ⟨hj, s.departing_of_acknowledges i target r h⟩, if_pos hj]
  · rw [if_neg (fun h => hj h.1), if_neg hj, State.hel_driveStatus, if_neg hj]

theorem State.hel_reported (j : Nat) : (s.reported i target r).hel j =
    if j = i then (s.hel i).taken r (s.acknowledges i target r) else s.hel j := by
  by_cases h : s.acknowledges i target r = true
  · have hclear := s.hel_driveStatus_clearDeparture i target r h
    rw [s.reported_of_acknowledged i target r h, Hel.taken, if_pos h]
    split
    next hoffline =>
      rw [State.hel_releaseFlux, hclear, hclear, if_pos rfl]
      split
      next =>
        have hstate : ((s.hel i).reported r).state = .offline := hoffline
        rw [Hel.acknowledged, if_pos hstate]
      next => rfl
    next hother =>
      rw [hclear]
      split
      next =>
        have hstate : ¬ ((s.hel i).reported r).state = .offline := hother
        rw [Hel.acknowledged, if_neg hstate]
      next => rfl
  · rw [s.reported_of_unacknowledged i target r (Bool.eq_false_iff.2 h), State.hel_driveStatus, Hel.taken, if_neg h]

/-- A zone after steps 1 and 2: an acknowledged departure ends, and an OFFLINE heliostat's stranded flux is released. -/
theorem State.zone_reported (z : Nat) :
    ((s.reported i target r).zone z).pendingDepartures = (s.zone z).pendingDepartures
        - (if s.acknowledges i target r = true ∧ (s.hel i).departureZone = some z then 1 else 0)
      ∧ ((s.reported i target r).zone z).stranded = (s.zone z).stranded
        - (if s.acknowledges i target r = true ∧ (s.hel i).state = .offline then (s.hel i).strandedIn z else 0)
      ∧ ((s.reported i target r).zone z).queue = (s.zone z).queue := by
  by_cases h : s.acknowledges i target r = true
  · have hsame : (s.driveStatus i r).hel i = (s.hel i).reported r := (s.hel_driveStatus i r i).trans (if_pos rfl)
    have hdeparting := s.departing_of_acknowledges i target r h
    have hclear : ((s.driveStatus i r).clearDeparture i).zone z = if (s.hel i).departureZone = some z then
        { s.zone z with pendingDepartures := (s.zone z).pendingDepartures - 1 } else s.zone z := by
      rw [State.zone_clearDeparture, hsame]
      exact if_congr (and_iff_right hdeparting) rfl rfl
    have hcleared : (((s.driveStatus i r).clearDeparture i).zone z).pendingDepartures = (s.zone z).pendingDepartures
          - (if (s.hel i).departureZone = some z then 1 else 0)
        ∧ (((s.driveStatus i r).clearDeparture i).zone z).stranded = (s.zone z).stranded
        ∧ (((s.driveStatus i r).clearDeparture i).zone z).queue = (s.zone z).queue := by
      rw [hclear]
      split
      · exact ⟨rfl, rfl, rfl⟩
      · exact ⟨rfl, rfl, rfl⟩
    obtain ⟨hpending, hstranded, hqueue⟩ := hcleared
    simp only [h, true_and]
    rw [s.reported_of_acknowledged i target r h]
    split
    next =>
      rw [State.zone_releaseFlux, s.hel_driveStatus_clearDeparture i target r h, if_pos rfl]
      exact ⟨hpending, congrArg (· - (s.hel i).strandedIn z) hstranded, hqueue⟩
    next => exact ⟨hpending, hstranded, hqueue⟩
  · rw [s.reported_of_unacknowledged i target r (Bool.eq_false_iff.2 h)]
    simp only [h]
    exact ⟨rfl, rfl, rfl⟩

end

/-! ### The consequences of a reply (R109, step 3) -/

section
variable {s : State} {i : Nat} {carried : Option Vec3} {r : GoodReply}

theorem State.consequences_of_faulty (h : r.faulty = true) : s.consequences i carried r = s.goFaulted i := if_pos h

theorem State.consequences_of_sound (h : r.faulty = false) : s.consequences i carried r = match (s.hel i).state with
    | .offline => if (s.hel i).stranded.isNone then s.queueOrStow i else s
    | .onTarget => s.pointing i carried r
    | .absent | .stowed | .queued | .standby | .excluded | .faulted => s :=
  if_neg (Bool.eq_false_iff.1 h)

theorem State.goFaulted_of_onTarget (h : (s.hel i).state = .onTarget) :
    s.goFaulted i = (s.departStranding i .faulted).raiseBoth .heliostatFault .heliostatFault := by
  rw [State.goFaulted, h]

theorem State.goFaulted_of_queued (h : (s.hel i).state = .queued) :
    s.goFaulted i = (s.dequeue i .faulted).raiseBoth .heliostatFault .heliostatFault := by
  rw [State.goFaulted, h]

theorem State.goFaulted_of_idle (h : (s.hel i).state = .offline ∨ (s.hel i).state = .stowed ∨ (s.hel i).state = .standby) :
    s.goFaulted i = (s.modHel i fun h => { h with state := .faulted }).raiseBoth .heliostatFault .heliostatFault := by
  rcases h with h | h | h <;> rw [State.goFaulted, h]

theorem State.goFaulted_of_kept (h : (s.hel i).state = .faulted ∨ (s.hel i).state = .excluded ∨ (s.hel i).state = .absent) :
    s.goFaulted i = s := by
  rcases h with h | h | h <;> rw [State.goFaulted, h]

theorem State.consequences_of_offline (h : r.faulty = false) (hs : (s.hel i).state = .offline) :
    s.consequences i carried r = if (s.hel i).stranded.isNone then s.queueOrStow i else s := by
  rw [State.consequences_of_sound h, hs]

theorem State.consequences_of_onTarget (h : r.faulty = false) (hs : (s.hel i).state = .onTarget) :
    s.consequences i carried r = s.pointing i carried r := by
  rw [State.consequences_of_sound h, hs]

/-- Where no consequence follows: the record is set aside, or a reply without a fault finds it resting. -/
theorem State.consequences_of_kept (h : (s.hel i).state = .excluded ∨ (s.hel i).state = .faulted ∨ (s.hel i).state = .absent
    ∨ (r.faulty = false ∧ ((s.hel i).state = .stowed ∨ (s.hel i).state = .queued ∨ (s.hel i).state = .standby))) :
    s.consequences i carried r = s := by
  cases hf : r.faulty with
  | true =>
    rw [State.consequences_of_faulty hf, State.goFaulted_of_kept]
    rcases h with h | h | h | ⟨h, -⟩
    · exact .inr (.inl h)
    · exact .inl h
    · exact .inr (.inr h)
    · exact absurd (hf.symm.trans h) Bool.noConfusion
  | false =>
    rw [State.consequences_of_sound hf]
    rcases h with h | h | h | ⟨-, h | h | h⟩ <;> rw [h]

/-- A deviation counted (R111). -/
def Hel.deviated (h : Hel) : Hel := { h with dev := min 15 (h.dev + 1) }

theorem State.pointing_of_none : s.pointing i none r = s := rfl

theorem State.pointing_of_some {n : Vec3} : s.pointing i (some n) r =
    if deviates s.link.ptol n r.normal then
      if s.link.devLimit ≤ min 15 ((s.hel i).dev + 1) then (s.modHel i Hel.deviated).goTrackingError i
      else s.modHel i Hel.deviated
    else s :=
  rfl

/-- The ways a reply can go on from the state of its record. -/
theorem State.consequences_cases (P : State → Prop) (kept : P s)
    (strands : (s.hel i).state = .onTarget → P ((s.departStranding i .faulted).raiseBoth .heliostatFault .heliostatFault))
    (leaves : (s.hel i).state = .queued → P ((s.dequeue i .faulted).raiseBoth .heliostatFault .heliostatFault))
    (faults : (s.hel i).state ≠ .onTarget →
      P ((s.modHel i fun h => { h with state := .faulted }).raiseBoth .heliostatFault .heliostatFault))
    (queues : (s.hel i).state = .offline → P (s.queueOrStow i))
    (counts : (s.hel i).state = .onTarget → P (s.modHel i Hel.deviated))
    (departs : (s.hel i).state = .onTarget → P ((s.modHel i Hel.deviated).goTrackingError i)) :
    P (s.consequences i carried r) := by
  cases hf : r.faulty with
  | true =>
    rw [State.consequences_of_faulty hf]
    cases hs : (s.hel i).state with
    | onTarget => exact State.goFaulted_of_onTarget hs ▸ strands hs
    | queued => exact State.goFaulted_of_queued hs ▸ leaves hs
    | offline => exact State.goFaulted_of_idle (.inl hs) ▸ faults (by rw [hs]; exact HState.noConfusion)
    | stowed => exact State.goFaulted_of_idle (.inr (.inl hs)) ▸ faults (by rw [hs]; exact HState.noConfusion)
    | standby => exact State.goFaulted_of_idle (.inr (.inr hs)) ▸ faults (by rw [hs]; exact HState.noConfusion)
    | faulted => exact (State.goFaulted_of_kept (.inl hs)).symm ▸ kept
    | excluded => exact (State.goFaulted_of_kept (.inr (.inl hs))).symm ▸ kept
    | absent => exact (State.goFaulted_of_kept (.inr (.inr hs))).symm ▸ kept
  | false =>
    rw [State.consequences_of_sound hf]
    split
    next hs =>
      split
      · exact queues hs
      · exact kept
    next hs =>
      cases carried with
      | none => exact kept
      | some n =>
        rw [State.pointing_of_some]
        split
        · split
          · exact departs hs
          · exact counts hs
        · exact kept
    all_goals exact kept

end

/-! ### What every reply leaves -/

/-- A record without what the consequences of a reply may write. -/
def Hel.replied (h : Hel) : Hel := { h.fixed with trackingError := false }

section
variable (s : State) (i : Nat)

theorem State.hel_goTrackingError (j : Nat) : (s.goTrackingError i).hel j =
    if j = i then { s.hel i with
      state := .standby
      onAlternate := false
      departing := true
      departureZone := some (s.joinZone (s.hel i))
      trackingError := true
      dev := 0 }
    else s.hel j := by
  rw [State.goTrackingError, State.raiseD_hel, State.hel_modHel]
  split
  · rw [State.hel_depart, if_pos rfl]
  next h => rw [State.hel_depart, if_neg h]

variable (carried : Option Vec3) (r : GoodReply)

theorem State.hel_consequences_of_ne {j : Nat} (hj : j ≠ i) : (s.consequences i carried r).hel j = s.hel j := by
  have hcount : (s.modHel i Hel.deviated).hel j = s.hel j := by rw [State.hel_modHel, if_neg hj]
  refine State.consequences_cases (fun u => u.hel j = s.hel j) rfl (fun _ => ?_) (fun _ => ?_) (fun _ => ?_) (fun _ => ?_)
    (fun _ => hcount) fun _ => ?_
  · rw [State.raiseBoth_hel, State.hel_departStranding, if_neg hj]
  · rw [State.raiseBoth_hel, State.hel_dequeue, if_neg hj]
  · rw [State.raiseBoth_hel, State.hel_modHel, if_neg hj]
  · rw [State.hel_queueOrStow, if_neg hj]
  · rw [State.hel_goTrackingError, if_neg hj, hcount]

theorem State.replied_consequences : ((s.consequences i carried r).hel i).replied = (s.hel i).replied := by
  refine State.consequences_cases (fun u => (u.hel i).replied = (s.hel i).replied) rfl (fun _ => ?_) (fun _ => ?_) (fun _ => ?_)
    (fun _ => ?_) (fun _ => ?_) fun _ => ?_
  · rw [State.raiseBoth_hel, State.hel_departStranding, if_pos rfl]; rfl
  · rw [State.raiseBoth_hel, State.hel_dequeue, if_pos rfl]; rfl
  · rw [State.raiseBoth_hel, State.hel_modHel, if_pos rfl]; rfl
  · rw [State.hel_queueOrStow, if_pos rfl]; rfl
  · rw [State.hel_modHel, if_pos rfl]; rfl
  · rw [State.hel_goTrackingError, if_pos rfl, State.hel_modHel, if_pos rfl]; rfl

theorem State.offRecords_consequences : (s.consequences i carried r).offRecords = s.offRecords := by
  refine State.consequences_cases (fun u => u.offRecords = s.offRecords) rfl (fun _ => ?_) (fun _ => ?_) (fun _ => rfl)
    (fun _ => ?_) (fun _ => rfl) fun _ => ?_
  · rw [State.offRecords_raiseBoth, State.offRecords_departStranding]
  · rw [State.offRecords_raiseBoth, State.offRecords_dequeue]
  · rw [State.queueOrStow_eq]; rfl
  · rw [State.goTrackingError, State.offRecords_raiseD, State.offRecords_modHel, State.offRecords_depart, State.offRecords_modHel]

theorem State.seg_still_consequences (k : Nat) : ((s.consequences i carried r).seg k).still = (s.seg k).still := by
  refine State.consequences_cases (fun u => (u.seg k).still = (s.seg k).still) rfl (fun _ => ?_) (fun _ => rfl) (fun _ => rfl)
    (fun _ => ?_) (fun _ => rfl) fun _ => ?_
  · exact s.seg_still_departStranding i k _
  · rw [State.queueOrStow_eq]; rfl
  · exact ((s.modHel i Hel.deviated).depart_frame i .standby).2.2.2.1 k

/-- A heliostat that is not ON_TARGET changes no more than its state, and no zone more than its queue. -/
theorem State.consequences_of_unaimed (hs : (s.hel i).state ≠ .onTarget) :
    (∃ x, (s.consequences i carried r).hel i = { s.hel i with state := x })
      ∧ ∀ z, ((s.consequences i carried r).zone z).pendingDepartures = (s.zone z).pendingDepartures
        ∧ ((s.consequences i carried r).zone z).stranded = (s.zone z).stranded := by
  refine State.consequences_cases (fun u => (∃ x, u.hel i = { s.hel i with state := x })
      ∧ ∀ z, (u.zone z).pendingDepartures = (s.zone z).pendingDepartures ∧ (u.zone z).stranded = (s.zone z).stranded)
    ⟨⟨_, rfl⟩, fun _ => ⟨rfl, rfl⟩⟩ (fun h => absurd h hs) (fun _ => ?_) (fun _ => ?_) (fun _ => ?_) (fun h => absurd h hs)
    fun h => absurd h hs
  · rw [State.raiseBoth_hel, State.hel_dequeue, if_pos rfl]
    refine ⟨⟨_, rfl⟩, fun z => ?_⟩
    rw [State.raiseBoth_zone, State.zone_dequeue]
    split
    · exact ⟨rfl, rfl⟩
    · exact ⟨rfl, rfl⟩
  · rw [State.raiseBoth_hel, State.hel_modHel, if_pos rfl]
    exact ⟨⟨_, rfl⟩, fun _ => ⟨rfl, rfl⟩⟩
  · rw [State.hel_queueOrStow, if_pos rfl]
    refine ⟨⟨_, rfl⟩, fun z => ?_⟩
    rw [State.queueOrStow_eq_ite]
    split
    · rw [State.zone_enqueue]
      split
      · exact ⟨rfl, rfl⟩
      · exact ⟨rfl, rfl⟩
    · exact ⟨rfl, rfl⟩

end

/-! ### What a reply leads to, by the state it finds -/

section
variable {s : State} {i : Nat} {carried : Option Vec3} {r : GoodReply}

theorem State.pPending_raiseBoth (s : State) (d : DEvent) (e : PEvent) :
    (s.raiseBoth d e).dPending d = true ∧ (s.raiseBoth d e).pPending e = true :=
  ⟨s.dPending_raiseD d, (s.raiseD d).pPending_raiseP e⟩

/-- A fault report takes a heliostat of the field to FAULTED (R44). -/
theorem State.consequences_faulted (h : r.faulty = true) (habsent : (s.hel i).state ≠ .absent)
    (hset : (s.hel i).state ≠ .excluded) (hfaulted : (s.hel i).state ≠ .faulted) :
    ((s.consequences i carried r).hel i).state = .faulted ∧ (s.consequences i carried r).dPending .heliostatFault = true
      ∧ (s.consequences i carried r).pPending .heliostatFault = true := by
  have hidle (hs : (s.hel i).state = .offline ∨ (s.hel i).state = .stowed ∨ (s.hel i).state = .standby) :
      ((s.goFaulted i).hel i).state = .faulted ∧ (s.goFaulted i).dPending .heliostatFault = true
        ∧ (s.goFaulted i).pPending .heliostatFault = true := by
    rw [State.goFaulted_of_idle hs, State.raiseBoth_hel, State.hel_modHel, if_pos rfl]
    exact ⟨rfl, State.pPending_raiseBoth _ _ _⟩
  rw [State.consequences_of_faulty h]
  cases hs : (s.hel i).state with
  | onTarget =>
    rw [State.goFaulted_of_onTarget hs, State.raiseBoth_hel, State.hel_departStranding, if_pos rfl]
    exact ⟨rfl, State.pPending_raiseBoth _ _ _⟩
  | queued =>
    rw [State.goFaulted_of_queued hs, State.raiseBoth_hel, State.hel_dequeue, if_pos rfl]
    exact ⟨rfl, State.pPending_raiseBoth _ _ _⟩
  | offline => exact hidle (.inl hs)
  | stowed => exact hidle (.inr (.inl hs))
  | standby => exact hidle (.inr (.inr hs))
  | faulted => exact absurd hs hfaulted
  | excluded => exact absurd hs hset
  | absent => exact absurd hs habsent

theorem State.consequences_dequeued (h : r.faulty = true) (hs : (s.hel i).state = .queued) :
    ((s.consequences i carried r).zone (s.assignedZone (s.hel i))).queue = (s.zone (s.assignedZone (s.hel i))).queue.erase i := by
  rw [State.consequences_of_faulty h, State.goFaulted_of_queued hs, State.raiseBoth_zone, State.zone_dequeue, if_pos rfl]

theorem State.consequences_stranding (h : r.faulty = true) (hs : (s.hel i).state = .onTarget) :
    ((s.consequences i carried r).hel i).departing = true
      ∧ ((s.consequences i carried r).hel i).stranded = some ⟨s.joinZone (s.hel i), s.pEff (s.hel i)⟩
      ∧ ((s.consequences i carried r).zone (s.joinZone (s.hel i))).stranded
          = (s.zone (s.joinZone (s.hel i))).stranded + s.pEff (s.hel i) := by
  rw [State.consequences_of_faulty h, State.goFaulted_of_onTarget hs, State.raiseBoth_hel, State.raiseBoth_zone,
    State.hel_departStranding, State.zone_departStranding, if_pos rfl, if_pos rfl]
  exact ⟨rfl, rfl, rfl⟩

/-- The first answer of an OFFLINE heliostat without a stranded amount (R43). -/
theorem State.consequences_answered (h : r.faulty = false) (hs : (s.hel i).state = .offline) (hnone : (s.hel i).stranded = none) :
    if (s.hel i).assignment.isSome ∧ s.stowInEffect = false ∧ (s.hel i).trackingError = false then
      ((s.consequences i carried r).hel i).state = .queued
        ∧ ((s.consequences i carried r).zone (s.assignedZone (s.hel i))).queue = (s.zone (s.assignedZone (s.hel i))).queue ++ [i]
    else ((s.consequences i carried r).hel i).state = .stowed := by
  rw [State.consequences_of_offline h hs, if_pos (Option.isNone_iff_eq_none.2 hnone), State.queueOrStow_eq_ite]
  split
  · rw [State.hel_enqueue, State.zone_enqueue, if_pos rfl, if_pos rfl]
    exact ⟨rfl, rfl⟩
  · rw [State.hel_modHel, if_pos rfl]

/-- The pointing check of an ON_TARGET heliostat (R111, R46). -/
theorem State.consequences_pointing {n : Vec3} {d : Nat} (h : r.faulty = false) (hs : (s.hel i).state = .onTarget)
    (hd : d = min 15 ((s.hel i).dev + 1)) :
    (deviates s.link.ptol n r.normal = false → s.consequences i (some n) r = s)
      ∧ (deviates s.link.ptol n r.normal = true → d < s.link.devLimit →
          ((s.consequences i (some n) r).hel i).state = .onTarget ∧ ((s.consequences i (some n) r).hel i).dev = d)
      ∧ (deviates s.link.ptol n r.normal = true → s.link.devLimit ≤ d →
          ((s.consequences i (some n) r).hel i).state = .standby ∧ ((s.consequences i (some n) r).hel i).dev = 0
          ∧ ((s.consequences i (some n) r).hel i).trackingError = true
          ∧ ((s.consequences i (some n) r).hel i).departing = true
          ∧ ((s.consequences i (some n) r).hel i).departureZone = some (s.joinZone (s.hel i))
          ∧ i ∈ ((s.consequences i (some n) r).seg (s.hel i).segment).urgent
          ∧ (s.consequences i (some n) r).dPending .trackingError = true) := by
  subst hd
  rw [State.consequences_of_onTarget h hs, State.pointing_of_some]
  have hcounted : (s.modHel i Hel.deviated).hel i = (s.hel i).deviated := State.hel_modHel_same _ _ _
  refine ⟨fun hoff => ?_, fun hoff hbelow => ?_, fun hoff hlimit => ?_⟩
  · rw [if_neg (Bool.eq_false_iff.1 hoff)]
  · rw [if_pos hoff, if_neg (Nat.not_le.2 hbelow), hcounted]
    exact ⟨hs, rfl⟩
  · rw [if_pos hoff, if_pos hlimit, State.hel_goTrackingError, if_pos rfl, hcounted]
    refine ⟨rfl, rfl, rfl, rfl, rfl, ?_, State.dPending_raiseD _ _⟩
    have hurgent := (s.modHel i Hel.deviated).mem_urgent_depart i .standby
    rwa [hcounted] at hurgent

end

/-! ### The reply applied -/

theorem Hel.taken_fields (h : Hel) (r : GoodReply) (acked : Bool) : (h.taken r acked).state = h.state
    ∧ (h.taken r acked).dev = h.dev ∧ (h.taken r acked).segment = h.segment ∧ (h.taken r acked).assignment = h.assignment
    ∧ (h.taken r acked).trackingError = h.trackingError ∧ (h.taken r acked).replied = (h.reported r).replied := by
  cases acked <;> exact ⟨rfl, rfl, rfl, rfl, rfl, rfl⟩

section
variable (s : State) (i : Nat) (target : Option Target) (r : GoodReply)

theorem State.hel_reported_same : (s.reported i target r).hel i = (s.hel i).taken r (s.acknowledges i target r) :=
  (s.hel_reported i target r i).trans (if_pos rfl)

/-- Zones, contribution and settings are those that stood before the reply. -/
theorem State.aim_reported : (s.reported i target r).joinZone ((s.reported i target r).hel i) = s.joinZone (s.hel i)
    ∧ (s.reported i target r).assignedZone ((s.reported i target r).hel i) = s.assignedZone (s.hel i)
    ∧ (s.reported i target r).pEff ((s.reported i target r).hel i) = s.pEff (s.hel i)
    ∧ (s.reported i target r).link = s.link ∧ (s.reported i target r).stowInEffect = s.stowInEffect := by
  rw [State.hel_reported_same, s.reported_eq i target r]
  cases s.acknowledges i target r <;> exact ⟨rfl, rfl, rfl, rfl, rfl⟩

end

section
variable (s : State) (i : Nat) (f : Frame) (r : GoodReply)

theorem State.replied_applyReply : ((s.applyReply i f r).hel i).replied = ((s.hel i).reported r).replied := by
  rw [State.applyReply_eq, State.replied_consequences, State.hel_reported_same]
  exact (Hel.taken_fields _ _ _).2.2.2.2.2

theorem State.hel_applyReply_of_ne {j : Nat} (hj : j ≠ i) : (s.applyReply i f r).hel j = s.hel j := by
  rw [State.applyReply_eq, State.hel_consequences_of_ne _ _ _ _ hj, State.hel_reported, if_neg hj]

theorem State.offRecords_applyReply : (s.applyReply i f r).offRecords = s.offRecords := by
  rw [State.applyReply_eq, State.offRecords_consequences, s.reported_eq i f.target r]
  rfl

theorem State.seg_still_applyReply (k : Nat) : ((s.applyReply i f r).seg k).still = (s.seg k).still := by
  rw [State.applyReply_eq, State.seg_still_consequences, s.reported_eq i f.target r]
  rfl

/-- What a reply does to the departure and the stranded flux of a heliostat that is not ON_TARGET. -/
theorem State.applyReply_of_unaimed (hs : (s.hel i).state ≠ .onTarget) :
    ((s.applyReply i f r).hel i).departing = ((s.hel i).departing && !s.acknowledges i f.target r)
      ∧ (s.acknowledges i f.target r = true → ((s.applyReply i f r).hel i).departureZone = none)
      ∧ ((s.applyReply i f r).hel i).stranded
          = (if s.acknowledges i f.target r = true ∧ (s.hel i).state = .offline then none else (s.hel i).stranded)
      ∧ ∀ z, ((s.applyReply i f r).zone z).pendingDepartures = (s.zone z).pendingDepartures
            - (if s.acknowledges i f.target r = true ∧ (s.hel i).departureZone = some z then 1 else 0)
          ∧ ((s.applyReply i f r).zone z).stranded = (s.zone z).stranded
            - (if s.acknowledges i f.target r = true ∧ (s.hel i).state = .offline then (s.hel i).strandedIn z else 0) := by
  have hsame := s.hel_reported_same i f.target r
  have hstate : ((s.reported i f.target r).hel i).state ≠ .onTarget := by
    rw [hsame, (Hel.taken_fields _ _ _).1]
    exact hs
  obtain ⟨⟨x, hrecord⟩, hzones⟩ := State.consequences_of_unaimed _ i f.normal r hstate
  have hzone z := s.zone_reported i f.target r z
  rw [State.applyReply_eq, hrecord, hsame]
  refine ⟨?_, fun hacked => ?_, ?_, fun z => ?_⟩
  · cases hacked : s.acknowledges i f.target r with
    | true => exact (Bool.and_false _).symm
    | false => exact (Bool.and_true _).symm
  · rw [hacked]
    rfl
  · cases hacked : s.acknowledges i f.target r with
    | true => exact if_congr (and_iff_right rfl).symm rfl rfl
    | false => rfl
  · obtain ⟨hpending, hstranded⟩ := hzones z
    obtain ⟨hbefore, hflux, -⟩ := hzone z
    exact ⟨hpending.trans hbefore, hstranded.trans hflux⟩

theorem State.state_reported : ((s.reported i f.target r).hel i).state = (s.hel i).state := by
  rw [State.hel_reported_same]
  exact (Hel.taken_fields _ _ _).1

theorem State.applyReply_faulted (h : r.faulty = true) (habsent : (s.hel i).state ≠ .absent) (hset : (s.hel i).state ≠ .excluded)
    (hfaulted : (s.hel i).state ≠ .faulted) : ((s.applyReply i f r).hel i).state = .faulted
      ∧ (s.applyReply i f r).dPending .heliostatFault = true ∧ (s.applyReply i f r).pPending .heliostatFault = true := by
  rw [← s.state_reported i f r] at habsent hset hfaulted
  exact State.consequences_faulted h habsent hset hfaulted

theorem State.applyReply_dequeued (h : r.faulty = true) (hs : (s.hel i).state = .queued) :
    ((s.applyReply i f r).zone (s.assignedZone (s.hel i))).queue = (s.zone (s.assignedZone (s.hel i))).queue.erase i := by
  obtain ⟨-, hzone, -⟩ := s.aim_reported i f.target r
  have hqueue := State.consequences_dequeued (carried := f.normal) h ((s.state_reported i f r).trans hs)
  rw [hzone, (s.zone_reported i f.target r _).2.2] at hqueue
  exact hqueue

theorem State.applyReply_stranding (h : r.faulty = true) (hs : (s.hel i).state = .onTarget) :
    ((s.applyReply i f r).hel i).departing = true
      ∧ ((s.applyReply i f r).hel i).stranded = some ⟨s.joinZone (s.hel i), s.pEff (s.hel i)⟩
      ∧ ((s.applyReply i f r).zone (s.joinZone (s.hel i))).stranded
          = (s.zone (s.joinZone (s.hel i))).stranded + s.pEff (s.hel i) := by
  obtain ⟨hzone, -, hflux, -⟩ := s.aim_reported i f.target r
  have hdeparture := State.consequences_stranding (carried := f.normal) h ((s.state_reported i f r).trans hs)
  have hbefore := (s.zone_reported i f.target r (s.joinZone (s.hel i))).2.1
  rw [hs, if_neg (by simp), Nat.sub_zero] at hbefore
  rw [hzone, hflux, hbefore] at hdeparture
  exact hdeparture

theorem State.applyReply_answered (h : r.faulty = false) (hs : (s.hel i).state = .offline)
    (hfree : (s.hel i).stranded = none ∨ s.acknowledges i f.target r = true) :
    if (s.hel i).assignment.isSome ∧ s.stowInEffect = false ∧ (s.hel i).trackingError = false then
      ((s.applyReply i f r).hel i).state = .queued
        ∧ ((s.applyReply i f r).zone (s.assignedZone (s.hel i))).queue = (s.zone (s.assignedZone (s.hel i))).queue ++ [i]
    else ((s.applyReply i f r).hel i).state = .stowed := by
  have hsame := s.hel_reported_same i f.target r
  have hnone : ((s.reported i f.target r).hel i).stranded = none := by
    rw [hsame]
    cases hacked : s.acknowledges i f.target r with
    | true => exact if_pos hs
    | false => exact hfree.resolve_right fun h => Bool.noConfusion (hacked.symm.trans h)
  have hanswer := State.consequences_answered (carried := f.normal) h ((s.state_reported i f r).trans hs) hnone
  obtain ⟨-, hzone, -, -, hstow⟩ := s.aim_reported i f.target r
  obtain ⟨-, -, -, hassignment, htracking, -⟩ := Hel.taken_fields (s.hel i) r (s.acknowledges i f.target r)
  rw [hzone, (s.zone_reported i f.target r _).2.2, hsame, hassignment, htracking, hstow] at hanswer
  exact hanswer

/-- Where steps 1 and 2 are all there is. -/
theorem State.applyReply_of_kept (hkept : (s.reported i f.target r).consequences i f.normal r = s.reported i f.target r) :
    ((s.applyReply i f r).hel i).state = (s.hel i).state ∧ ((s.applyReply i f r).hel i).dev = (s.hel i).dev := by
  obtain ⟨hstate, hdev, -⟩ := Hel.taken_fields (s.hel i) r (s.acknowledges i f.target r)
  rw [State.applyReply_eq, hkept, State.hel_reported_same]
  exact ⟨hstate, hdev⟩

/-- An OFFLINE heliostat that still holds a stranded amount stays OFFLINE. -/
theorem State.applyReply_of_stranded (h : r.faulty = false) (hs : (s.hel i).state = .offline) (hstranded : (s.hel i).stranded ≠ none)
    (hacked : s.acknowledges i f.target r = false) : ((s.applyReply i f r).hel i).state = .offline := by
  have hheld : ((s.reported i f.target r).hel i).stranded.isNone ≠ true := by
    rw [State.hel_reported_same, hacked]
    exact fun h => hstranded (Option.isNone_iff_eq_none.1 h)
  have hkept := State.consequences_of_offline (carried := f.normal) h ((s.state_reported i f r).trans hs)
  rw [if_neg hheld] at hkept
  exact (s.applyReply_of_kept i f r hkept).1.trans hs

theorem State.applyReply_of_resting (h : (s.hel i).state = .excluded ∨ (s.hel i).state = .faulted
      ∨ (r.faulty = false ∧ ((s.hel i).state = .stowed ∨ (s.hel i).state = .queued ∨ (s.hel i).state = .standby))) :
    ((s.applyReply i f r).hel i).state = (s.hel i).state := by
  refine (s.applyReply_of_kept i f r (State.consequences_of_kept ?_)).1
  rw [s.state_reported i f r]
  rcases h with h | h | h
  · exact .inl h
  · exact .inr (.inl h)
  · exact .inr (.inr (.inr h))

theorem State.applyReply_of_unchecked (h : r.faulty = false) (hs : (s.hel i).state = .onTarget) (hn : f.normal = none) :
    ((s.applyReply i f r).hel i).state = .onTarget ∧ ((s.applyReply i f r).hel i).dev = (s.hel i).dev := by
  have hkept := State.consequences_of_onTarget (carried := f.normal) h ((s.state_reported i f r).trans hs)
  rw [hn, State.pointing_of_none] at hkept
  rw [← hs]
  exact s.applyReply_of_kept i f r (hn ▸ hkept)

/-- The pointing check of an ON_TARGET heliostat whose frame carried a normal (R111, R46). -/
theorem State.applyReply_pointing {n : Vec3} {d : Nat} {off : Bool} (h : r.faulty = false) (hs : (s.hel i).state = .onTarget)
    (hn : f.normal = some n) (hd : d = min 15 ((s.hel i).dev + 1)) (hoff : deviates s.link.ptol n r.normal = off) :
    (off = false → ((s.applyReply i f r).hel i).state = .onTarget ∧ ((s.applyReply i f r).hel i).dev = (s.hel i).dev)
      ∧ (off = true → d < s.link.devLimit →
          ((s.applyReply i f r).hel i).state = .onTarget ∧ ((s.applyReply i f r).hel i).dev = d)
      ∧ (off = true → s.link.devLimit ≤ d →
          ((s.applyReply i f r).hel i).state = .standby ∧ ((s.applyReply i f r).hel i).dev = 0
          ∧ ((s.applyReply i f r).hel i).trackingError = true ∧ ((s.applyReply i f r).hel i).departing = true
          ∧ ((s.applyReply i f r).hel i).departureZone = some (s.joinZone (s.hel i))
          ∧ i ∈ ((s.applyReply i f r).seg (s.hel i).segment).urgent ∧ (s.applyReply i f r).dPending .trackingError = true) := by
  obtain ⟨-, hdev, hsegment, -⟩ := Hel.taken_fields (s.hel i) r (s.acknowledges i f.target r)
  obtain ⟨hzone, -, -, hlink, -⟩ := s.aim_reported i f.target r
  have hcheck := State.consequences_pointing (n := n) (d := d) h ((s.state_reported i f r).trans hs)
    (by rw [State.hel_reported_same, hdev, hd])
  rw [hzone, State.hel_reported_same, hsegment, hlink, hoff] at hcheck
  obtain ⟨hgood, hcounts, hdeparts⟩ := hcheck
  rw [State.applyReply_eq, hn]
  refine ⟨fun h => ?_, hcounts, hdeparts⟩
  rw [← hs]
  have hkept := s.applyReply_of_kept i f r (hn ▸ hgood h)
  rwa [State.applyReply_eq, hn] at hkept

end

/-! ### The end of the dialogue with a good reply -/

/-- The dialogue and the runs end (R109, R134). -/
def State.goodLine (s : State) (k : Nat) : State := s.modSeg k fun g => { g with frame := none, errorRun := 0, invertedRun := 0 }

/-- What the reply writes of the record addressed and of the pass counter: nothing for an orphaned frame (R109, R113). -/
def State.goodRecord (s : State) (k : Nat) (f : Frame) (r : GoodReply) : State :=
  match f.heliostat with
  | some i =>
    if f.orphaned then s.goodLine k
    else ((s.goodLine k).applyReply i f r).modSeg k fun g => { g with answered := min 65535 (g.answered + 1) }
  | none => s.goodLine k

/-- A segment without its pass counter of replies and its urgent queue. -/
def Seg.offReply (g : Seg) : Seg := { g with answered := 0, urgent := [] }

section
variable (s : State) (k : Nat) (f : Frame) (r : GoodReply)

theorem State.goodReply_eq : s.goodReply k f r = (s.goodRecord k f r).dialogueEnd k f.origin
    (if f.orphaned then .noReply else .done) (if f.orphaned then none else f.replyData r) := by
  have hend : s.goodReply k f r = (if f.origin = .maint then
      if f.orphaned then (s.goodRecord k f r).maintReturn k .noReply none
      else (s.goodRecord k f r).maintReturn k .done (f.replyData r) else s.goodRecord k f r).refreshClear := rfl
  rw [hend, State.dialogueEnd]
  cases f.orphaned <;> rfl

theorem State.seg_goodLine : (s.goodLine k).seg k = { s.seg k with frame := none, errorRun := 0, invertedRun := 0 } :=
  State.seg_modSeg_same s k fun g => { g with frame := none, errorRun := 0, invertedRun := 0 }

theorem State.goodRecord_of_orphaned (ho : f.orphaned = true) : s.goodRecord k f r = s.goodLine k := by
  unfold State.goodRecord
  split
  · exact if_pos ho
  · rfl

theorem State.goodRecord_of_live {i : Nat} (ho : f.orphaned = false) (hi : f.heliostat = some i) :
    s.goodRecord k f r = ((s.goodLine k).applyReply i f r).modSeg k fun g => { g with answered := min 65535 (g.answered + 1) } := by
  rw [State.goodRecord, hi, ho]
  rfl

theorem State.offReply_goodRecord : ((s.goodRecord k f r).seg k).offReply
    = Seg.offReply { s.seg k with frame := none, errorRun := 0, invertedRun := 0 } := by
  have hline : ((s.goodLine k).seg k).offReply = Seg.offReply { s.seg k with frame := none, errorRun := 0, invertedRun := 0 } :=
    congrArg Seg.offReply (s.seg_goodLine k)
  unfold State.goodRecord
  split
  next i _ =>
    split
    · exact hline
    · have hstill := (s.goodLine k).seg_still_applyReply i f r k
      rw [State.seg_modSeg_same]
      exact (congrArg (fun g : Seg => { g with answered := 0 }) hstill :).trans hline
  next => exact hline

theorem State.offRecords_goodRecord : (s.goodRecord k f r).offRecords = s.offRecords := by
  unfold State.goodRecord
  split
  next i _ =>
    split
    · rfl
    · exact ((s.goodLine k).offRecords_applyReply i f r :)
  next => rfl

theorem Seg.fields_of_offReply {g g' : Seg} (h : g'.offReply = g.offReply) : g'.frame = g.frame ∧ g'.errorRun = g.errorRun
    ∧ g'.invertedRun = g.invertedRun ∧ g'.missed = g.missed ∧ g'.slots = g.slots ∧ g'.head = g.head ∧ g'.count = g.count :=
  ⟨(congrArg Seg.frame h :), (congrArg Seg.errorRun h :), (congrArg Seg.invertedRun h :), (congrArg Seg.missed h :),
    (congrArg Seg.slots h :), (congrArg Seg.head h :), (congrArg Seg.count h :)⟩

theorem Seg.fields_of_offRing {g g' : Seg} (h : g'.offRing = g.offRing) : g'.frame = g.frame ∧ g'.errorRun = g.errorRun
    ∧ g'.invertedRun = g.invertedRun ∧ g'.missed = g.missed ∧ g'.answered = g.answered ∧ g'.urgent = g.urgent :=
  ⟨(congrArg Seg.frame h :), (congrArg Seg.errorRun h :), (congrArg Seg.invertedRun h :), (congrArg Seg.missed h :),
    (congrArg Seg.answered h :), (congrArg Seg.urgent h :)⟩

end

theorem State.pPending_dialogueEnd (s : State) (k : Nat) (o : Origin) (result : MaintResult) (reply : Option Reply) {e : PEvent}
    (he : s.pPending e = true) : (s.dialogueEnd k o result reply).pPending e = true := by
  have hraised (u : State) (hu : u.pevents = s.pevents) : u.refreshClear.pPending e = true := by
    rw [State.pPending, hu.symm] at he
    rw [State.pPending, State.refreshClear_pevents]
    split
    · rw [BitVec.getLsbD_or, he, Bool.true_or]
    · exact he
  refine hraised _ ?_
  split <;> rfl

/-- The reply data of a maintenance record and the fields of a reply (R109, R127). -/
theorem ReplyFields.reply_eq {r : ReplyFields} {m : Motion} (hm : r.motion = some m) :
    r.reply = ⟨m, r.fault.toNat, components r.x r.y r.z⟩ := by
  rw [ReplyFields.reply, hm]
  rfl

theorem GoodReply.faulty_iff (r : GoodReply) : r.faulty = true ↔ r.fault ≠ 0 ∨ r.motion = .halted := by
  simp [GoodReply.faulty]

theorem State.acknowledges_iff (s : State) (i : Nat) (target : Option Target) (r : GoodReply) :
    s.acknowledges i target r = true ↔ (s.hel i).departing = true ∧ r.fault = 0
      ∧ (target = some .stow ∨ ∃ n, target = some (.point n) ∧ 96 ≤ n) := by
  rw [State.acknowledges, Bool.and_eq_true, Bool.and_eq_true, offFrameTarget_iff, beq_iff_eq, and_assoc]

section
variable (s : State) (k : Nat) (f : Frame) (r : GoodReply)

/-- The segment of a good reply: the dialogue and its runs end, and a record of the ring is returned where the frame came of it. -/
theorem State.goodReply_line : ((s.goodReply k f r).seg k).frame = none ∧ ((s.goodReply k f r).seg k).errorRun = 0
    ∧ ((s.goodReply k f r).seg k).invertedRun = 0 ∧ ((s.goodReply k f r).seg k).missed = (s.seg k).missed
    ∧ (f.origin ≠ .maint → ((s.goodReply k f r).seg k).slots = (s.seg k).slots
        ∧ ((s.goodReply k f r).seg k).count = (s.seg k).count) := by
  obtain ⟨hframe, herrors, hinverted, hmissed, hslots, -, hcount⟩ := Seg.fields_of_offReply (s.offReply_goodRecord k f r)
  have hseg : (s.goodReply k f r).seg k = if f.origin = .maint then ((s.goodRecord k f r).seg k).returnHead
      (if f.orphaned then .noReply else .done) (if f.orphaned then none else f.replyData r) else (s.goodRecord k f r).seg k := by
    rw [State.goodReply_eq]
    exact State.seg_dialogueEnd _ _ _ _ _
  rw [hseg]
  generalize (s.goodRecord k f r).seg k = g at hframe herrors hinverted hmissed hslots hcount ⊢
  split
  next hmaint => exact ⟨hframe, herrors, hinverted, hmissed, fun h => absurd hmaint h⟩
  next => exact ⟨hframe, herrors, hinverted, hmissed, fun _ => ⟨hslots, hcount⟩⟩

theorem State.recordReturned_goodReply (ho : f.origin = .maint) {result : MaintResult} {reply : Option Reply}
    (hresult : (if f.orphaned then .noReply else .done) = result) (hreply : (if f.orphaned then none else f.replyData r) = reply) :
    RecordReturned (s.seg k) ((s.goodReply k f r).seg k) result reply ∧ (s.goodReply k f r).dPending .maintReturned = true := by
  obtain ⟨-, -, -, -, hslots, hhead, hcount⟩ := Seg.fields_of_offReply (s.offReply_goodRecord k f r)
  rw [State.goodReply_eq, hresult, hreply, State.dPending_dialogueEnd]
  have hreturned := (s.goodRecord k f r).recordReturned_dialogueEnd k f.origin result reply ho
  exact ⟨hreturned.congr hslots hhead hcount, by simp [ho]⟩

theorem State.goodReply_of_orphaned (ho : f.orphaned = true) :
    (s.goodReply k f r).hels = s.hels ∧ ((s.goodReply k f r).seg k).answered = (s.seg k).answered := by
  have hseg := (s.goodRecord k f r).offRing_dialogueEnd k f.origin (if f.orphaned then .noReply else .done)
    (if f.orphaned then none else f.replyData r)
  rw [State.goodReply_eq, State.dialogueEnd_hels]
  rw [s.goodRecord_of_orphaned k f r ho, s.seg_goodLine] at hseg
  rw [s.goodRecord_of_orphaned k f r ho]
  exact ⟨rfl, (Seg.fields_of_offRing hseg).2.2.2.2.1⟩

/-- The record of a frame that is not orphaned takes the reply; the rest of the dialogue's end writes ring and FIELD_CLEAR alone. -/
theorem State.goodReply_of_live {i : Nat} (ho : f.orphaned = false) (hi : f.heliostat = some i) :
    ((s.goodReply k f r).seg k).answered = min 65535 ((s.seg k).answered + 1)
      ∧ (∀ j, (s.goodReply k f r).hel j = ((s.goodLine k).applyReply i f r).hel j)
      ∧ (∀ z, (s.goodReply k f r).zone z = ((s.goodLine k).applyReply i f r).zone z)
      ∧ (∀ j, ((s.goodReply k f r).seg j).urgent = (((s.goodLine k).applyReply i f r).seg j).urgent)
      ∧ (∀ e, ((s.goodLine k).applyReply i f r).dPending e = true → (s.goodReply k f r).dPending e = true)
      ∧ (∀ e, ((s.goodLine k).applyReply i f r).pPending e = true → (s.goodReply k f r).pPending e = true) := by
  have hstill := (s.goodLine k).seg_still_applyReply i f r k
  rw [s.seg_goodLine] at hstill
  rw [State.goodReply_eq, s.goodRecord_of_live k f r ho hi]
  generalize (if f.orphaned then MaintResult.noReply else .done) = result
  generalize (if f.orphaned then none else f.replyData r) = reply
  generalize (s.goodLine k).applyReply i f r = u at hstill ⊢
  have hanswered : (u.seg k).answered = (s.seg k).answered := (congrArg Seg.answered hstill :)
  have hring := (u.modSeg k fun g => { g with answered := min 65535 (g.answered + 1) }).offRing_dialogueEnd k f.origin result reply
  obtain ⟨-, -, -, -, hcounted, hurgent⟩ := Seg.fields_of_offRing hring
  rw [State.seg_modSeg_same] at hcounted hurgent
  refine ⟨by rw [hcounted, hanswered], fun j => State.dialogueEnd_hel _ _ _ _ _ _, fun z => State.dialogueEnd_zone _ _ _ _ _ _,
    fun j => ?_, fun e he => ?_, fun e he => State.pPending_dialogueEnd _ _ _ _ _ he⟩
  · by_cases hj : j = k
    · rw [hj]
      exact hurgent
    · rw [State.seg_dialogueEnd_of_ne _ _ _ _ _ hj, State.seg_modSeg, if_neg hj]
  · rw [State.dPending_dialogueEnd]
    exact Bool.or_eq_true_iff.2 (.inl he)

theorem State.offRecords_goodReply : (s.goodReply k f r).offRecords = s.offRecords := by
  rw [State.goodReply_eq, State.offRecords_dialogueEnd, State.offRecords_goodRecord]

end

theorem Hel.fields_of_replied {h h' : Hel} (he : h'.replied = h.replied) : h'.nRep = h.nRep ∧ h'.motion = h.motion
    ∧ h'.fault = h.fault ∧ h'.miss = h.miss ∧ h'.seq = h.seq :=
  ⟨(congrArg Hel.nRep he :), (congrArg Hel.motion he :), (congrArg Hel.fault he :), (congrArg Hel.miss he :),
    (congrArg Hel.seq he :)⟩

theorem Hel.strandedIn_self {h : Hel} {st : Stranded} (hst : h.stranded = some st) : h.strandedIn st.zone = st.amount := by
  rw [Hel.strandedIn, hst]
  exact if_pos rfl

/-- What a reply reads of the part stands while the dialogue's own record is emptied. -/
theorem State.goodLine_reads (s : State) (k : Nat) : (∀ i, s.hel i = (s.goodLine k).hel i)
    ∧ (∀ z, s.zone z = (s.goodLine k).zone z) ∧ (∀ h, s.joinZone h = (s.goodLine k).joinZone h)
    ∧ (∀ h, s.assignedZone h = (s.goodLine k).assignedZone h) ∧ (∀ h, s.pEff h = (s.goodLine k).pEff h)
    ∧ s.link = (s.goodLine k).link ∧ s.stowInEffect = (s.goodLine k).stowInEffect :=
  ⟨fun _ => rfl, fun _ => rfl, fun _ => rfl, fun _ => rfl, fun _ => rfl, rfl, rfl⟩

/-! ### O42 -/

/-- Settles O42: what R109's three steps make of the record, by the state the reply finds it in. -/
theorem goodReply : Obligations.GoodReply := by
  unfold Obligations.GoodReply
  intro s k bytes body f r hframe hphase hbegun hbytes hr hsound hanswers
  have hno : ¬ (!true) = true := Bool.false_ne_true
  have hexec : exec (.receptionComplete k bytes) s = .next (s.goodReply k f r.reply) := by
    rw [exec_receptionComplete hframe hphase hbegun, State.classify_of_plain (.inl hbytes) hr, hsound, hanswers, if_neg hno,
      if_neg hno]
  obtain ⟨hended, herrors, hinverted, hmissed, hring⟩ := s.goodReply_line k f r.reply
  have hrest := s.offRecords_goodReply k f r.reply
  obtain ⟨hms, hsweep, hscu, hlink, -⟩ := State.rest_of_offRecords hrest
  refine ⟨_, hexec, hended, herrors, hinverted, hmissed, hring, fun ho => ?_, ?_, State.sun_of_offRecords hrest, hsweep,
    State.rsg_of_offRecords hrest, hscu, hlink, hms⟩
  · obtain ⟨hhels, hanswered⟩ := s.goodReply_of_orphaned k f r.reply ho
    exact ⟨hhels, hanswered, fun hmaint => s.recordReturned_goodReply k f r.reply hmaint (if_pos ho) (if_pos ho)⟩
  · rintro i h faulty acked m ho hi rfl hm hfaulty hacked
    obtain ⟨hanswered, hhel, hzone, hurgent, hd, hp⟩ := s.goodReply_of_live k f r.reply ho hi
    have hack : (s.goodLine k).acknowledges i f.target r.reply = acked := by
      refine Bool.eq_iff_iff.2 ((State.acknowledges_iff _ i f.target r.reply).trans (Iff.trans ?_ hacked.symm))
      rw [Byte.eq_zero_iff]
      rfl
    have hfault : r.reply.faulty = faulty := by
      refine Bool.eq_iff_iff.2 (r.reply.faulty_iff.trans (Iff.trans ?_ hfaulty.symm))
      rw [ReplyFields.reply_eq hm, ne_eq, ne_eq, Byte.eq_zero_iff]
    obtain ⟨hnormal, hmotion, hcode, hmiss, hseq⟩ := Hel.fields_of_replied ((s.goodLine k).replied_applyReply i f r.reply)
    rw [ReplyFields.reply_eq hm] at hfault hack
    have hdata : f.kind.map (fun q => ⟨q, m, r.fault.toNat, components r.x r.y r.z⟩) = f.replyData r.reply := by
      rw [ReplyFields.reply_eq hm]
      rfl
    have hmaint (hmaint : f.origin = .maint) := s.recordReturned_goodReply k f r.reply hmaint (if_neg (Bool.eq_false_iff.1 ho))
      ((if_neg (Bool.eq_false_iff.1 ho)).trans hdata.symm)
    obtain ⟨hhel', hzone', hjoin', hassigned', hflux', hlink', hstow'⟩ := s.goodLine_reads k
    simp only [hhel, hzone, hhel', hzone', hjoin', hassigned', hflux', hlink', hstow']
    generalize s.goodReply k f r.reply = t at *
    rw [ReplyFields.reply_eq hm] at hd hp hurgent hnormal hmotion hcode hmiss hseq ⊢
    generalize s.goodLine k = u at *
    generalize hq : (⟨m, r.fault.toNat, components r.x r.y r.z⟩ : GoodReply) = q at *
    have hunaimed (hs : (u.hel i).state ≠ .onTarget) := u.applyReply_of_unaimed i f q hs
    simp only [hack] at hunaimed
    refine ⟨hanswered, fun ho => ⟨(hmaint ho).2, (hmaint ho).1⟩, ?_, ?_, ?_, hmiss, hseq, fun hs => ?_, fun hs ha => ?_, fun hs => ?_,
      fun hs ha z => ?_, fun hf habsent hset hfaulted => ?_, fun hf hs => ?_, fun hf hs => ?_, fun hf hs hfree => ?_,
      fun hf hs hheld ha => ?_, fun n v d off hf hs hn hv hdev hoff => ?_, fun hf hs hn => ?_, fun hs => ?_, fun j hj => ?_⟩
    · rw [hnormal, ← hq]; rfl
    · rw [hmotion, ← hq]; rfl
    · rw [hcode, ← hq]; rfl
    · obtain ⟨hdeparting, hdeparted, -, hzones⟩ := hunaimed hs
      exact ⟨hdeparting, hdeparted, fun z => (hzones z).1⟩
    · obtain ⟨-, -, hstranded, hzones⟩ := hunaimed (by rw [hs]; exact HState.noConfusion)
      refine ⟨by rw [hstranded, if_pos ⟨ha, hs⟩], fun st hst => ?_⟩
      rw [(hzones st.zone).2, if_pos ⟨ha, hs⟩, Hel.strandedIn_self hst]
    · obtain ⟨-, -, hstranded, -⟩ := hunaimed (by rw [hs]; exact HState.noConfusion)
      rw [hstranded, if_neg (by rw [hs]; exact fun h => HState.noConfusion h.2)]
    · obtain ⟨-, -, -, hzones⟩ := hunaimed hs
      rw [(hzones z).2, if_neg (fun h => ha.elim (· h.2) fun hno => Bool.noConfusion (hno.symm.trans h.1)), Nat.sub_zero]
    · obtain ⟨hstate, hraised, hraised'⟩ := u.applyReply_faulted i f q (hfault.trans hf) habsent hset hfaulted
      exact ⟨hstate, hd _ hraised, hp _ hraised'⟩
    · exact u.applyReply_dequeued i f q (hfault.trans hf) hs
    · exact u.applyReply_stranding i f q (hfault.trans hf) hs
    · exact u.applyReply_answered i f q (hfault.trans hf) hs (hfree.imp_right hack.trans)
    · obtain ⟨-, -, hstranded, -⟩ := hunaimed (by rw [hs]; exact HState.noConfusion)
      refine ⟨u.applyReply_of_stranded i f q (hfault.trans hf) hs hheld (hack.trans ha), ?_⟩
      rw [hstranded, if_neg (fun h => Bool.noConfusion (ha.symm.trans h.1))]
    · have hdeviates : deviates u.link.ptol n q.normal = off := by
        refine Bool.eq_iff_iff.2 (Iff.trans ?_ hoff.symm)
        rw [deviates, decide_eq_true_iff, dotProduct, ← hq, hv]
      obtain ⟨hgood, hcounts, hdeparts⟩ := u.applyReply_pointing i f q (hfault.trans hf) hs hn hdev hdeviates
      refine ⟨hgood, hcounts, fun h hlimit => ?_⟩
      obtain ⟨hstate, hzero, htracking, hdeparting, hdeparted, hin, hraised⟩ := hdeparts h hlimit
      exact ⟨hstate, hzero, htracking, hdeparting, hdeparted, hurgent _ ▸ hin, hd _ hraised⟩
    · exact u.applyReply_of_unchecked i f q (hfault.trans hf) hs hn
    · refine u.applyReply_of_resting i f q (hs.imp_right (Or.imp_right fun h => ⟨hfault.trans h.1, h.2⟩))
    · exact u.hel_applyReply_of_ne i f q hj

end Sys2Proof.Machine
end

section
/-! PROOFS. Cloud shadows: the shade of the segments re-derived (R149, R150), and the rows of chapter 7. -/

-- One proof after another: begun all at once, the proofs of the whole text outgrow the check's memory.
set_option Elab.async false

namespace Sys2Proof.Machine

/-! ### What the settlements of a shade change leave -/

/-- `t` differs from `s` in nothing but sensors, shades and their settings, and what settlements may change. -/
structure ShadeFrame (s t : State) : Prop where
  settles : SettleFrame { s with scu := t.scu } t
  rest : t.offRecords = { s with scu := t.scu }.offRecords

theorem SettleFrame.withScu {s t : State} (h : SettleFrame s t) (x : Scu) : SettleFrame { s with scu := x } { t with scu := x } := by
  obtain ⟨hhel, hzone, hpoint, hseg, hrest⟩ := h
  exact ⟨hhel, hzone, hpoint, hseg, (congrArg (fun v : State => ({ v with scu := x } : State)) hrest :)⟩

theorem State.offRecords_settleList (s : State) (zs : List Nat) : (s.settleList zs).offRecords = s.offRecords :=
  SettleKeeps.settleList (P := fun u => u.offRecords = s.offRecords)
    { shed := fun u z h => (State.offRecords_of_offTable (u.shedOne_offTable z)).trans h
      grant := fun u z i _ h => (State.offRecords_of_offTable (u.grant_offTable z i)).trans h
      zoneState := fun _ _ _ h => h
      raise := fun _ _ _ h => h } zs rfl

namespace ShadeFrame
variable {s t u : State}

theorem refl (s : State) : ShadeFrame s s := ⟨.refl s, rfl⟩

theorem trans (h : ShadeFrame s t) (k : ShadeFrame t u) : ShadeFrame s u :=
  ⟨(h.settles.withScu u.scu).trans k.settles,
    k.rest.trans (congrArg (fun v : State => ({ v with scu := u.scu } : State)) h.rest :)⟩

theorem ofSettle (hframe : SettleFrame t u) (hrest : u.offRecords = t.offRecords) : ShadeFrame t u := by
  have hscu : u.scu = t.scu := (congrArg (fun v : State => v.scu) hrest :)
  have hsame : ({ t with scu := u.scu } : State) = t := by rw [hscu]
  exact ⟨hsame.symm ▸ hframe, hsame.symm ▸ hrest⟩

theorem settleList (h : ShadeFrame s t) (zs : List Nat) : ShadeFrame s (t.settleList zs) :=
  h.trans (.ofSettle (t.settleList_frame zs) (State.offRecords_settleList t zs))

theorem refreshClear (h : ShadeFrame s t) : ShadeFrame s t.refreshClear :=
  h.trans (.ofSettle t.refreshClear_frame t.offRecords_refreshClear)

theorem setScu (h : ShadeFrame s t) (x : Scu) : ShadeFrame s { t with scu := x } := h.trans ⟨.refl _, rfl⟩

theorem raiseBoth (h : ShadeFrame s t) (d : DEvent) (e : PEvent) : ShadeFrame s (t.raiseBoth d e) :=
  h.trans (.ofSettle (.raiseBoth t d e) rfl)

end ShadeFrame

theorem State.scu_of_offRecords {t u : State} (h : t.offRecords = u.offRecords) : t.scu = u.scu :=
  (congrArg (fun v : State => v.scu) h :)

/-! ### The shades re-derived (R149, R150) -/

/-- The re-derivation of a segment's shade leaves the sensors, the settings and the maps, and every segment but those
re-derived keeps its shade. -/
structure Reshaded (s t : State) (ks : List Nat) : Prop where
  frame : ShadeFrame s t
  channels : t.scu.channels = s.scu.channels
  settings : t.scu.shf = s.scu.shf ∧ t.scu.qual = s.scu.qual ∧ t.scu.shadeMax = s.scu.shadeMax
  map : ∀ j, (t.shade j).map = (s.shade j).map
  shaded : ∀ j, (t.shade j).shaded = if j ∈ ks then s.derivedShade j else (s.shade j).shaded

namespace Reshaded
variable {s t u : State} {k : Nat} {ks : List Nat}

theorem refl (s : State) : Reshaded s s [] := ⟨.refl s, rfl, ⟨rfl, rfl, rfl⟩, fun _ => rfl, fun _ => (if_neg List.not_mem_nil).symm⟩

theorem channel (h : Reshaded s t ks) (j : Nat) : t.channel j = s.channel j := congrArg (Tab.get Channel.reset · j) h.channels

/-- What a shade is derived from stands. -/
theorem derivedShade (h : Reshaded s t ks) (j : Nat) : t.derivedShade j = s.derivedShade j := by
  simp only [State.derivedShade, h.map j, h.channel]

theorem trans (h : Reshaded s t [k]) (h' : Reshaded t u ks) : Reshaded s u (k :: ks) := by
  obtain ⟨hshf, hqual, hmax⟩ := h.settings
  obtain ⟨hshf', hqual', hmax'⟩ := h'.settings
  refine ⟨h.frame.trans h'.frame, h'.channels.trans h.channels, ⟨hshf'.trans hshf, hqual'.trans hqual, hmax'.trans hmax⟩,
    fun j => (h'.map j).trans (h.map j), fun j => ?_⟩
  rw [h'.shaded, h.derivedShade, h.shaded]
  by_cases hks : j ∈ ks
  · rw [if_pos hks, if_pos (List.mem_cons_of_mem k hks)]
  · rw [if_neg hks]
    exact if_congr (by simp [hks]) rfl rfl

theorem rederive (s : State) (k : Nat) : Reshaded s (s.rederive k) [k] := by
  unfold State.rederive
  split
  next hsame =>
    refine ⟨.refl s, rfl, ⟨rfl, rfl, rfl⟩, fun _ => rfl, fun j => ?_⟩
    split
    next hj => rw [List.mem_singleton.1 hj, hsame]
    next => rfl
  next =>
    have hwrite : ShadeFrame s (s.modShade k fun g => { g with shaded := s.derivedShade k }) := (ShadeFrame.refl s).setScu _
    have hscu : (s.shadeSettle k (s.derivedShade k)).scu = (s.modShade k fun g => { g with shaded := s.derivedShade k }).scu :=
      State.scu_of_offRecords (State.offRecords_settleList _ _)
    have hshade j : (s.shadeSettle k (s.derivedShade k)).shade j
        = if j = k then { s.shade k with shaded := s.derivedShade k } else s.shade j :=
      (congrArg (fun x : Scu => Tab.get SegShade.reset x.shades j) hscu).trans
        (s.shade_modShade k j fun g => { g with shaded := s.derivedShade k })
    refine ⟨hwrite.settleList _, ?_, ?_, fun j => ?_, fun j => ?_⟩
    · rw [hscu]; rfl
    · rw [hscu]; exact ⟨rfl, rfl, rfl⟩
    · rw [hshade]
      split
      next hj => rw [hj]
      next => rfl
    · rw [hshade]
      by_cases hj : j = k
      · rw [if_pos hj, if_pos (List.mem_singleton.2 hj), hj]
      · rw [if_neg hj, if_neg fun h => hj (List.mem_singleton.1 h)]

theorem rederiveList (ks : List Nat) (s : State) : Reshaded s (s.rederiveList ks) ks := by
  induction ks generalizing s with
  | nil => exact .refl s
  | cons k ks ih => exact (Reshaded.rederive s k).trans (ih (s.rederive k))

theorem refreshClear (h : Reshaded s t ks) : Reshaded s t.refreshClear ks := by
  have hshade j : t.refreshClear.shade j = t.shade j := t.refreshClear_shade j
  refine ⟨h.frame.refreshClear, ?_, ?_, fun j => ?_, fun j => ?_⟩
  · rw [State.refreshClear_scu, h.channels]
  · rw [State.refreshClear_scu]
    exact h.settings
  · rw [hshade, h.map]
  · rw [hshade, h.shaded]

theorem reshade (s : State) (k : Nat) : Reshaded s (s.reshade k) (s.mappedTo k) := (Reshaded.rederiveList _ s).refreshClear

end Reshaded

/-- An event once raised stays pending while shades are re-derived. -/
theorem SettleKeeps.rederiveList {P : State → Prop} (h : SettleKeeps P)
    (hshade : ∀ (u : State) (k : Nat) (f : SegShade → SegShade), P u → P (u.modShade k f)) (ks : List Nat) {s : State} (hs : P s) :
    P (s.rederiveList ks) := by
  induction ks generalizing s with
  | nil => exact hs
  | cons k ks ih =>
    refine ih ?_
    unfold State.rederive
    split
    · exact hs
    · exact h.settleList _ (hshade s k _ hs)

/-- A protection event that is pending stays so through settlements. -/
theorem settleKeeps_pPending (e : PEvent) : SettleKeeps fun s => s.pPending e = true where
  shed s z h := (congrArg (·.pPending e) (s.shedOne_offTable z)).trans h
  grant s z i _ h := (congrArg (·.pPending e) (s.grant_offTable z i)).trans h
  zoneState _ _ _ h := h
  raise s d p h := by
    change (s.raiseP p).pPending e = true
    rw [State.pPending_raiseP_iff, h, Bool.true_or]

theorem State.pPending_refreshClear {s : State} {e : PEvent} (h : s.pPending e = true) : s.refreshClear.pPending e = true := by
  rw [State.pPending] at h
  rw [State.pPending, State.refreshClear_pevents]
  split
  · rw [BitVec.getLsbD_or, h, Bool.true_or]
  · exact h

theorem State.dPending_reshade {s : State} {e : DEvent} (k : Nat) (h : s.dPending e = true) : (s.reshade k).dPending e = true :=
  (State.dPending_refreshClear _ _).trans ((settleKeeps_dPending e).rederiveList (fun _ _ _ hu => hu) _ h)

theorem State.pPending_reshade {s : State} {e : PEvent} (k : Nat) (h : s.pPending e = true) : (s.reshade k).pPending e = true :=
  State.pPending_refreshClear ((settleKeeps_pPending e).rederiveList (fun _ _ _ hu => hu) _ h)

/-- What stood before a channel was written is followed through the re-derivation of its segments. -/
theorem shadeFollowed_reshade {s u : State} {k : Fin 8} (hhels : u.hels = s.hels) (hzones : u.zones = s.zones)
    (hshades : u.scu.shades = s.scu.shades) (hchannel : ∀ j, j ≠ k.val → u.channel j = s.channel j)
    (hsettings : u.scu.shf = s.scu.shf ∧ u.scu.qual = s.scu.qual ∧ u.scu.shadeMax = s.scu.shadeMax) :
    ShadeFollowed s (u.reshade k) k := by
  have h := Reshaded.reshade u k
  generalize u.reshade k = v at h ⊢
  obtain ⟨hshf, hqual, hmax⟩ := h.settings
  obtain ⟨hshf', hqual', hmax'⟩ := hsettings
  obtain ⟨hhel, hzone, -⟩ := h.frame.settles
  have hshade j : u.shade j = s.shade j := congrArg (Tab.get SegShade.reset · j) hshades
  refine ⟨fun j => ⟨(h.map j).trans (congrArg SegShade.map (hshade j)), ?_⟩, fun j hj => (h.channel j).trans (hchannel j hj),
    hshf.trans hshf', hqual.trans hqual', hmax.trans hmax', fun i => (hhel i).trans (congrArg Hel.still (State.hel_congr hhels i)),
    fun z => (hzone z).trans (congrArg (fun x : Tab Zone => (Tab.get Zone.reset x z).still) hzones)⟩
  rw [h.shaded, h.derivedShade, hshade]
  refine if_congr ?_ rfl rfl
  rw [State.mappedTo, List.mem_filter, List.mem_range, hshade, and_iff_right j.isLt]

/-! ### Onsets and ends (R141, R142, R144) -/

theorem State.rest_reshade (s : State) (k : Nat) : (s.reshade k).ms = s.ms ∧ (s.reshade k).pins = s.pins := by
  have h := (Reshaded.reshade s k).frame.rest
  generalize s.reshade k = t at h ⊢
  exact ⟨(congrArg (fun v : State => v.ms) h :), (congrArg (fun v : State => v.pins) h :)⟩

theorem State.channel_reshade (s : State) (k j : Nat) : (s.reshade k).channel j = s.channel j := (Reshaded.reshade s k).channel j

section
variable {s u : State} {k : Fin 8}

/-- A channel written, and the event it raises: its segments follow. -/
theorem shadeFollowed_modChannel (hhels : u.hels = s.hels) (hzones : u.zones = s.zones) (hscu : u.scu = s.scu)
    (f : Channel → Channel) (v : State) (hv : v.hels = u.hels ∧ v.zones = u.zones ∧ v.scu = (u.modChannel k f).scu) :
    ShadeFollowed s (v.reshade k) k ∧ (v.reshade k).channel k = f (s.channel k) := by
  obtain ⟨hvhels, hvzones, hvscu⟩ := hv
  have hchannel j : v.channel j = if j = k.val then f (s.channel k) else s.channel j := by
    have hu j : u.channel j = s.channel j := congrArg (fun x : Scu => Tab.get Channel.reset x.channels j) hscu
    rw [← hu, ← hu]
    exact (congrArg (fun x : Scu => Tab.get Channel.reset x.channels j) hvscu).trans (u.channel_modChannel k j f)
  refine ⟨shadeFollowed_reshade (hvhels.trans hhels) (hvzones.trans hzones) ?_ (fun j hj => (hchannel j).trans (if_neg hj)) ?_,
    (v.channel_reshade k k).trans ((hchannel k).trans (if_pos rfl))⟩
  · rw [hvscu, ← hscu]; rfl
  · rw [hvscu, ← hscu]; exact ⟨rfl, rfl, rfl⟩

theorem sensorOnset_shadeOnset (hhels : u.hels = s.hels) (hzones : u.zones = s.zones) (hscu : u.scu = s.scu) (start : Millis) :
    SensorOnset s (u.shadeOnset k start) k (s.channel k) start := by
  have hu : u.channel k = s.channel k := congrArg (fun x : Scu => Tab.get Channel.reset x.channels k) hscu
  have hroom : (s.channel k).hasRoom = decide ((s.channel k).records.length < (s.channel k).depth) := rfl
  have honset : (s.channel k).onset start = (if (s.channel k).records.length < (s.channel k).depth then
      { s.channel k with
        state := .shaded, cand := none, shadeStart := start, records := (s.channel k).records ++ [⟨start, none⟩] }
      else { s.channel k with
        state := .shaded, cand := none, shadeStart := start, overruns := min 255 ((s.channel k).overruns + 1) }) := by
    rw [Channel.onset, hroom]
    by_cases h : (s.channel k).records.length < (s.channel k).depth
    · rw [decide_eq_true h, if_pos h]; rfl
    · rw [decide_eq_false h, if_neg h]; rfl
  unfold State.shadeOnset
  dsimp only
  rw [hu, hroom]
  split
  next hin =>
    obtain ⟨hfollowed, hchannel⟩ := shadeFollowed_modChannel hhels hzones hscu (fun c => c.onset start)
      (u.modChannel k fun c => c.onset start) ⟨rfl, rfl, rfl⟩
    exact ⟨hchannel.trans honset, fun h => absurd (of_decide_eq_true hin) h.not_gt, hfollowed⟩
  next =>
    obtain ⟨hfollowed, hchannel⟩ := shadeFollowed_modChannel hhels hzones hscu (fun c => c.onset start)
      ((u.modChannel k fun c => c.onset start).raiseD .captureOverrun) ⟨rfl, rfl, rfl⟩
    exact ⟨hchannel.trans honset, fun _ => State.dPending_reshade k (State.dPending_raiseD _ _), hfollowed⟩

theorem sensorEnd_shadeEnd (hhels : u.hels = s.hels) (hzones : u.zones = s.zones) (hscu : u.scu = s.scu) (stop : Millis) :
    SensorEnd s (u.shadeEnd k stop) k (s.channel k) stop := by
  obtain ⟨hfollowed, hchannel⟩ := shadeFollowed_modChannel hhels hzones hscu (fun c => c.finish stop)
    (u.modChannel k fun c => c.finish stop) ⟨rfl, rfl, rfl⟩
  refine ⟨hchannel.trans ?_, hfollowed⟩
  rfl

theorem State.rest_qualify (s : State) (k : Nat) (start : Millis) :
    (s.qualify k start).ms = s.ms ∧ (s.qualify k start).pins = s.pins := by
  unfold State.qualify State.shadeOnset State.shadeEnd
  dsimp only
  split
  · split
    · exact State.rest_reshade _ k
    · exact State.rest_reshade _ k
  · exact State.rest_reshade _ k

/-- A qualified change, by the state of its channel. -/
theorem qualified_change (hhels : u.hels = s.hels) (hzones : u.zones = s.zones) (hscu : u.scu = s.scu) (start : Millis) :
    ((s.channel k).state = .sunlit → SensorOnset s (u.qualify k start) k (s.channel k) start)
      ∧ ((s.channel k).state ≠ .sunlit → SensorEnd s (u.qualify k start) k (s.channel k) start) := by
  have hu : u.channel k = s.channel k := congrArg (fun x : Scu => Tab.get Channel.reset x.channels k) hscu
  have hqualified : (u.channel k).qualified = true ↔ (s.channel k).state = .sunlit := by rw [hu, Channel.qualified, beq_iff_eq]
  refine ⟨fun h => ?_, fun h => ?_⟩
  · rw [State.qualify, if_pos (hqualified.2 h)]
    exact sensorOnset_shadeOnset hhels hzones hscu start
  · rw [State.qualify, if_neg fun hq => h (hqualified.1 hq)]
    exact sensorEnd_shadeEnd hhels hzones hscu start

end

/-! ### A sample (R140) -/

section
variable {s : State} {k : Nat} {level : Bool}

theorem State.sampleSensor_of_qualified (h : level = (s.channel k).qualified) :
    s.sampleSensor k level = s.modChannel k fun c => { c with cand := none } :=
  if_pos h

theorem State.sampleSensor_of_begun (h : level ≠ (s.channel k).qualified) (hc : (s.channel k).cand = none) :
    s.sampleSensor k level = if s.scu.qual = 0 then s.qualify k s.ms
      else s.modChannel k fun c => { c with cand := some s.newCand } := by
  refine (if_neg h).trans ?_
  rw [hc]

theorem State.sampleSensor_of_pending {cd : Cand} (h : level ≠ (s.channel k).qualified) (hc : (s.channel k).cand = some cd) :
    s.sampleSensor k level = if cd.ripe s.ms then s.qualify k cd.start else s := by
  refine (if_neg h).trans ?_
  rw [hc]

theorem State.shd_setShd (s : State) (k : Fin 8) (level : Bool) : (s.setShd k level).pins.shd.getLsbD k = level := by
  cases level <;> simp [State.setShd]

end

theorem Cand.ripe_iff (cd : Cand) (now : Millis) : cd.ripe now = true ↔ since cd.deadline cd.start ≤ since now cd.start := by
  rw [Cand.ripe, decide_eq_true_iff, Cand.span]

/-- A differing sample whose candidate's time is up, or that needs none, qualifies at once. -/
theorem State.sampleSensor_of_ripe {s u : State} {k : Nat} {level : Bool} {now start : Millis} (hscu : u.scu = s.scu)
    (hms : u.ms = now) (h : level ≠ ((s.channel k).state == .sunlit))
    (hripe : ((s.channel k).cand = none ∧ s.scu.qual = 0 ∧ start = now)
      ∨ ∃ cd, (s.channel k).cand = some cd ∧ since cd.deadline cd.start ≤ since now cd.start ∧ start = cd.start) :
    u.sampleSensor k level = u.qualify k start := by
  have hchannel : u.channel k = s.channel k := congrArg (fun x : Scu => Tab.get Channel.reset x.channels k) hscu
  have hdiffers : level ≠ (u.channel k).qualified := by rw [hchannel]; exact h
  subst hms
  rcases hripe with ⟨hc, hqual, rfl⟩ | ⟨cd, hc, hlate, rfl⟩
  · rw [State.sampleSensor_of_begun hdiffers (hchannel ▸ hc), hscu, if_pos hqual]
  · rw [State.sampleSensor_of_pending hdiffers (hchannel ▸ hc), if_pos ((Cand.ripe_iff cd _).2 hlate)]

/-- A sample that qualifies nothing: the candidate of its channel becomes `x`, and nothing else changes but the input. -/
def SampleKept (s t : State) (k : Fin 8) (level : Bool) (x : Option Cand) : Prop :=
  t.channel k = { s.channel k with cand := x } ∧ (∀ j, j ≠ k.val → t.channel j = s.channel j) ∧ t.pins.shd.getLsbD k = level
    ∧ { t with scu := s.scu, pins := s.pins } = s ∧ { t.scu with channels := s.scu.channels } = s.scu

section
variable {s : State} {k : Fin 8} {level : Bool}

theorem sampleKept_modChannel (x : Option Cand) :
    SampleKept s ((s.setShd k level).modChannel k fun c => { c with cand := x }) k level x :=
  ⟨State.channel_modChannel_same (s.setShd k level) k fun c => { c with cand := x },
    fun j hj => (State.channel_modChannel (s.setShd k level) k j fun c => { c with cand := x }).trans (if_neg hj),
    s.shd_setShd k level, rfl, rfl⟩

theorem sampleKept_setShd : SampleKept s (s.setShd k level) k level (s.channel k).cand :=
  ⟨rfl, fun _ _ => rfl, s.shd_setShd k level, rfl, rfl⟩

end

/-- Settles O47: the sample's four cases by the level, the candidate and QUAL. -/
theorem sensorSample : Obligations.SensorSample := by
  unfold Obligations.SensorSample
  rintro s k level c rfl
  refine ⟨fun hquiet => ⟨_, rfl, ?_⟩, fun start hdiffers hripe => ⟨_, rfl, ?_⟩⟩
  · refine (?_ : SampleKept s ((s.setShd k level).sampleSensor k level) k level _)
    by_cases hlevel : level = (s.channel k).qualified
    · rw [State.sampleSensor_of_qualified (s := s.setShd k level) hlevel, if_pos (show level = ((s.channel k).state == .sunlit) from hlevel)]
      exact sampleKept_modChannel none
    · rw [if_neg (show ¬ level = ((s.channel k).state == .sunlit) from hlevel)]
      rcases hquiet with h | ⟨hc, hqual⟩ | ⟨cd, hc, hearly⟩
      · exact absurd h hlevel
      · rw [State.sampleSensor_of_begun (s := s.setShd k level) hlevel hc, hc, if_neg (show (s.setShd k level).scu.qual ≠ 0 from hqual)]
        exact sampleKept_modChannel (some (s.setShd k level).newCand)
      · rw [State.sampleSensor_of_pending (s := s.setShd k level) hlevel hc, State.setShd_ms,
          if_neg fun h => Nat.not_le.2 hearly ((Cand.ripe_iff cd _).1 h)]
        have hkept := sampleKept_setShd (s := s) (k := k) (level := level)
        rwa [hc] at hkept ⊢
  · have hqualified := State.sampleSensor_of_ripe (s.setShd_scu k level) (s.setShd_ms k level) hdiffers hripe
    obtain ⟨hms, hpins⟩ := (s.setShd k level).rest_qualify k start
    obtain ⟨honset, hend⟩ := qualified_change (s.setShd_hels k level) (s.setShd_zones k level) (s.setShd_scu k level) (k := k) start
    rw [hqualified, hms, hpins]
    exact ⟨rfl, s.shd_setShd k level, honset, hend⟩

/-! ### Onset, end and stuck sensor at their moments (R140, R147) -/

theorem since_lt (now start : Millis) : since now start < 4294967296 := BitVec.isLt _

/-- At its deadline a candidate is ripe. -/
theorem Cand.ripe_at_deadline (cd : Cand) (now : Millis) :
    since cd.deadline cd.start ≤ since (now + BitVec.ofNat 32 (since cd.deadline cd.start - since now cd.start)) cd.start := by
  have hspan := since_lt cd.deadline cd.start
  have hpast : since (now + BitVec.ofNat 32 (since cd.deadline cd.start - since now cd.start)) cd.start
      = (since now cd.start + (since cd.deadline cd.start - since now cd.start)) % 4294967296 := by
    have hadd : now + BitVec.ofNat 32 (since cd.deadline cd.start - since now cd.start) - cd.start
        = now - cd.start + BitVec.ofNat 32 (since cd.deadline cd.start - since now cd.start) := by
      rw [BitVec.add_sub_comm]
    rw [since, hadd, BitVec.toNat_add, BitVec.toNat_ofNat, Nat.add_mod_mod]
    rfl
  have hnow := since_lt now cd.start
  rw [hpast, Nat.mod_eq_of_lt (by omega)]
  omega

/-- The state a candidate's deadline finds, the level sampled there. -/
theorem qualified_at_deadline {s : State} {k : Fin 8} {level : Bool} {cd : Cand} (hc : (s.channel k).cand = some cd)
    (hdiffers : level ≠ ((s.channel k).state == .sunlit)) :
    (((s.elapseTo (s.channel k).cand).setShd k level).sampleSensor k level).ms
        = s.ms + BitVec.ofNat 32 (since cd.deadline cd.start - since s.ms cd.start)
      ∧ ((s.channel k).state = .sunlit → SensorOnset s
          (((s.elapseTo (s.channel k).cand).setShd k level).sampleSensor k level) k (s.channel k) cd.start)
      ∧ ((s.channel k).state ≠ .sunlit → SensorEnd s
          (((s.elapseTo (s.channel k).cand).setShd k level).sampleSensor k level) k (s.channel k) cd.start) := by
  obtain ⟨u, hu⟩ : ∃ u, u = (s.elapseTo (s.channel k).cand).setShd k level := ⟨_, rfl⟩
  have hms : u.ms = s.ms + BitVec.ofNat 32 (since cd.deadline cd.start - since s.ms cd.start) := by rw [hu, hc]; rfl
  have hhels : u.hels = s.hels := by rw [hu, hc]; rfl
  have hzones : u.zones = s.zones := by rw [hu, hc]; rfl
  have hscu : u.scu = s.scu := by rw [hu, hc]; rfl
  rw [← hu, State.sampleSensor_of_ripe hscu hms hdiffers (.inr ⟨cd, hc, cd.ripe_at_deadline s.ms, rfl⟩), (u.rest_qualify k cd.start).1]
  exact ⟨hms, qualified_change hhels hzones hscu cd.start⟩

theorem State.sensorStuck_eq {s : State} {k : Fin 8} (hs : (s.channel k).state = .shaded) (hlimit : s.scu.shadeMax ≠ 0) :
    exec (.sensorStuck k) s = .next (((s.elapse (s.untilStuck k)).markStuck k).reshade k) := by
  rw [show exec (.sensorStuck k) s = execSensorStuck k s from rfl, execSensorStuck, if_pos ⟨hs, hlimit⟩]

/-- Settles O48: each row at its moment, and the shade of the segments it concerns. -/
theorem shadowEvents : Obligations.ShadowEvents := by
  unfold Obligations.ShadowEvents
  rintro s k c rfl
  refine ⟨fun cd hs hc => ?_, fun cd hs hc => ?_, fun hs hlimit => ?_⟩
  · have hqualified : (s.channel k).qualified = true := by rw [Channel.qualified, hs]; rfl
    obtain ⟨hms, honset, -⟩ := qualified_at_deadline (level := false) hc (by rw [hs]; exact Bool.noConfusion)
    refine ⟨_, ?_, hms, honset hs⟩
    rw [show exec (.shadowOnset k) s = execShadowOnset k s from rfl, execShadowOnset, if_pos hqualified]
  · have hlow : ((s.channel k).state == .sunlit) = false := beq_eq_false_iff_ne.2 hs
    obtain ⟨hms, -, hend⟩ := qualified_at_deadline (level := true) hc (by rw [hlow]; exact Bool.noConfusion)
    refine ⟨_, ?_, hms, hend hs⟩
    rw [show exec (.shadowEnd k) s = execShadowEnd k s from rfl, execShadowEnd,
      if_neg (show ¬ (s.channel k).qualified = true from Bool.eq_false_iff.1 hlow)]
  · obtain ⟨hfollowed, hchannel⟩ := shadeFollowed_modChannel (s := s) (u := s.elapse (s.untilStuck k)) (k := k) rfl rfl rfl
      (fun c => { c with state := .stuck }) ((s.elapse (s.untilStuck k)).markStuck k) ⟨rfl, rfl, rfl⟩
    obtain ⟨hd, hp⟩ := State.pPending_raiseBoth ((s.elapse (s.untilStuck k)).modChannel k fun c => { c with state := .stuck })
      .sensorStuck .sensorStuck
    exact ⟨_, State.sensorStuck_eq hs hlimit, hchannel, State.dPending_reshade k hd, State.pPending_reshade k hp,
      (State.rest_reshade _ k).1, hfollowed⟩

end Sys2Proof.Machine
end

section
/-! PROOFS. SET_SHADE, in the steps of R153. -/

-- One proof after another: begun all at once, the proofs of the whole text outgrow the check's memory.
set_option Elab.async false

namespace Sys2Proof.Machine

/-! ### The steps of R153 -/

section
variable (s : State)

theorem State.channel_foldl_modChannel (f : Nat → Channel → Channel) {l : List Nat} (hl : l.Nodup) (j : Nat) :
    (l.foldl (fun s k => s.modChannel k (f k)) s).channel j = if j ∈ l then f j (s.channel j) else s.channel j := by
  induction l generalizing s with
  | nil => exact (if_neg List.not_mem_nil).symm
  | cons k l ih =>
    obtain ⟨hk, hrest⟩ := List.nodup_cons.1 hl
    rw [List.foldl_cons, ih _ hrest, State.channel_modChannel]
    by_cases hj : j = k
    · subst hj
      rw [if_neg hk, if_pos rfl, if_pos List.mem_cons_self]
    · rw [if_neg hj]
      exact if_congr (by simp [hj]) rfl rfl

theorem State.shade_foldl_modShade (f : Nat → SegShade → SegShade) {l : List Nat} (hl : l.Nodup) (j : Nat) :
    (l.foldl (fun s k => s.modShade k (f k)) s).shade j = if j ∈ l then f j (s.shade j) else s.shade j := by
  induction l generalizing s with
  | nil => exact (if_neg List.not_mem_nil).symm
  | cons k l ih =>
    obtain ⟨hk, hrest⟩ := List.nodup_cons.1 hl
    rw [List.foldl_cons, ih _ hrest, State.shade_modShade]
    by_cases hj : j = k
    · subst hj
      rw [if_neg hk, if_pos rfl, if_pos List.mem_cons_self]
    · rw [if_neg hj]
      exact if_congr (by simp [hj]) rfl rfl

theorem State.foldl_modChannel_eq (f : Nat → Channel → Channel) (l : List Nat) : ∃ x : Tab Channel,
    l.foldl (fun s k => s.modChannel k (f k)) s = { s with scu := { s.scu with channels := x } } := by
  induction l generalizing s with
  | nil => exact ⟨s.scu.channels, rfl⟩
  | cons k l ih =>
    obtain ⟨x, hx⟩ := ih (s.modChannel k (f k))
    exact ⟨x, hx⟩

theorem State.foldl_modShade_eq (f : Nat → SegShade → SegShade) (l : List Nat) : ∃ x : Tab SegShade,
    l.foldl (fun s k => s.modShade k (f k)) s = { s with scu := { s.scu with shades := x } } := by
  induction l generalizing s with
  | nil => exact ⟨s.scu.shades, rfl⟩
  | cons k l ih =>
    obtain ⟨x, hx⟩ := ih (s.modShade k (f k))
    exact ⟨x, hx⟩

/-- Step 1 of R153. -/
theorem State.setDepths_cases (d : BitVec 64) : (∃ x : Tab Channel, s.setDepths d = { s with scu := { s.scu with channels := x } })
    ∧ ∀ k < 8, (s.setDepths d).channel k = (s.channel k).setDepth (clamp 1 8 (byteAt d k).toNat) :=
  ⟨s.foldl_modChannel_eq _ _, fun k hk =>
    (s.channel_foldl_modChannel (fun k c => c.setDepth (clamp 1 8 (byteAt d k).toNat)) List.nodup_range k).trans
      (if_pos (List.mem_range.2 hk))⟩

/-- Step 3 of R153: a new SHF is written and settled. -/
theorem State.setShf_cases (f : Nat) : ShadeFrame s (s.setShf f) ∧ (s.setShf f).scu = { s.scu with shf := f } := by
  have hwrite : ShadeFrame s { s with scu := { s.scu with shf := f } } := (ShadeFrame.refl s).setScu _
  unfold State.setShf State.shfSettle
  dsimp only
  split
  · exact ⟨hwrite, rfl⟩
  · split
    · exact ⟨hwrite, rfl⟩
    · exact ⟨hwrite.settleList _, State.scu_of_offRecords (State.offRecords_settleList _ _)⟩

end

/-- Step 4 of R153: the channels of `l` that are overdue become STUCK, and where there is one the event is raised. -/
structure StuckChecked (s t : State) (l : List Nat) : Prop where
  frame : ShadeFrame s t
  scu : ∃ x : Tab Channel, t.scu = { s.scu with channels := x }
  channel : ∀ j, t.channel j = if j ∈ l ∧ s.overdue j = true then { s.channel j with state := .stuck } else s.channel j
  raised : ∀ j ∈ l, s.overdue j = true → t.dPending .sensorStuck = true ∧ t.pPending .sensorStuck = true
  kept : s.dPending .sensorStuck = true → s.pPending .sensorStuck = true →
    t.dPending .sensorStuck = true ∧ t.pPending .sensorStuck = true

theorem State.ms_of_shadeFrame {s t : State} (h : ShadeFrame s t) : t.ms = s.ms := (congrArg (fun v : State => v.ms) h.rest :)

namespace StuckChecked
variable {s t u : State} {k : Nat} {l : List Nat}

theorem refl (s : State) : StuckChecked s s [] :=
  ⟨.refl s, ⟨s.scu.channels, rfl⟩, fun _ => (if_neg fun h => List.not_mem_nil h.1).symm, fun _ h => absurd h List.not_mem_nil,
    fun hd hp => ⟨hd, hp⟩⟩

theorem stuckCheck (s : State) (k : Nat) : StuckChecked s (s.stuckCheck k) [k] := by
  unfold State.stuckCheck
  split
  next hdue =>
    refine ⟨((ShadeFrame.refl s).setScu _).raiseBoth _ _, ⟨_, rfl⟩, fun j => ?_, fun j _ _ => State.pPending_raiseBoth _ _ _,
      fun _ _ => State.pPending_raiseBoth _ _ _⟩
    refine (s.channel_modChannel k j fun c => { c with state := .stuck }).trans ?_
    by_cases hj : j = k
    · subst hj
      rw [if_pos rfl, if_pos ⟨List.mem_singleton_self j, hdue⟩]
    · rw [if_neg hj, if_neg fun h => hj (List.mem_singleton.1 h.1)]
  next hdue =>
    refine ⟨.refl s, ⟨s.scu.channels, rfl⟩, fun j => (if_neg ?_).symm, fun j hj h => absurd (List.mem_singleton.1 hj ▸ h) hdue,
      fun hd hp => ⟨hd, hp⟩⟩
    exact fun ⟨hj, h⟩ => hdue (List.mem_singleton.1 hj ▸ h)

/-- Whether a channel other than the one checked is overdue stands. -/
theorem overdue_of_ne (h : StuckChecked s t [k]) {j : Nat} (hj : j ≠ k) : t.overdue j = s.overdue j := by
  obtain ⟨x, hx⟩ := h.scu
  have hchannel : t.channel j = s.channel j := (h.channel j).trans (if_neg fun hin => hj (List.mem_singleton.1 hin.1))
  have hmax : t.scu.shadeMax = s.scu.shadeMax := (congrArg Scu.shadeMax hx :)
  rw [State.overdue, State.tooLong, State.shadeLimit, hchannel, State.ms_of_shadeFrame h.frame, hmax]
  rfl

theorem cons (h : StuckChecked s t [k]) (h' : StuckChecked t u l) (hk : k ∉ l) : StuckChecked s u (k :: l) := by
  obtain ⟨x, hx⟩ := h.scu
  obtain ⟨y, hy⟩ := h'.scu
  refine ⟨h.frame.trans h'.frame, ⟨y, hy.trans (by rw [hx])⟩, fun j => ?_, fun j hj hdue => ?_, fun hd hp => ?_⟩
  · rw [h'.channel, h.channel]
    by_cases hj : j = k
    · subst hj
      rw [if_neg fun hin => hk hin.1]
      exact if_congr (by simp) rfl rfl
    · rw [h.overdue_of_ne hj, if_neg (c := j ∈ [k] ∧ _) fun hin => hj (List.mem_singleton.1 hin.1)]
      exact if_congr (by simp [hj]) rfl rfl
  · by_cases hjk : j = k
    · obtain ⟨hd, hp⟩ := h.raised k (List.mem_singleton_self k) (hjk ▸ hdue)
      exact h'.kept hd hp
    · exact h'.raised j ((List.mem_cons.1 hj).resolve_left hjk) ((h.overdue_of_ne hjk).trans hdue)
  · obtain ⟨hd', hp'⟩ := h.kept hd hp
    exact h'.kept hd' hp'

theorem foldl {l : List Nat} (hl : l.Nodup) (s : State) : StuckChecked s (l.foldl State.stuckCheck s) l := by
  induction l generalizing s with
  | nil => exact .refl s
  | cons k l ih =>
    obtain ⟨hk, hrest⟩ := List.nodup_cons.1 hl
    exact (StuckChecked.stuckCheck s k).cons (ih hrest _) hk

end StuckChecked

/-! ### SET_SHADE taken -/

/-- The state SET_SHADE has written its figures into before its fourth step. -/
def State.shadeSettings (s : State) (shf qual shadeMax : Nat) (depths : BitVec 64) : State :=
  let s1 := s.setDepths depths
  let s3 := ({ s1 with scu := { s1.scu with qual := qual } } : State).setShf shf
  { s3 with scu := { s3.scu with shadeMax := shadeMax } }

section
variable (s : State) (maps depths : BitVec 64) (shf qual shadeMax : Nat)

theorem State.setShade_eq : s.setShade maps shf qual shadeMax depths =
    (((((List.range 8).foldl State.stuckCheck (s.shadeSettings shf qual shadeMax depths)).setMaps maps).rederiveList
      (List.range 8)).refreshClear) := rfl

theorem State.shadeSettings_cases : ShadeFrame s (s.shadeSettings shf qual shadeMax depths)
    ∧ (s.shadeSettings shf qual shadeMax depths).scu.shf = shf ∧ (s.shadeSettings shf qual shadeMax depths).scu.qual = qual
    ∧ (s.shadeSettings shf qual shadeMax depths).scu.shadeMax = shadeMax
    ∧ ∀ k < 8, (s.shadeSettings shf qual shadeMax depths).channel k = (s.channel k).setDepth (clamp 1 8 (byteAt depths k).toNat) := by
  obtain ⟨⟨x, hx⟩, hdepth⟩ := s.setDepths_cases depths
  have hdepths : ShadeFrame s (s.setDepths depths) := hx ▸ (ShadeFrame.refl s).setScu _
  rw [State.shadeSettings]
  dsimp only
  generalize s.setDepths depths = u at hdepth hdepths ⊢
  obtain ⟨hframe, hscu⟩ := State.setShf_cases ({ u with scu := { u.scu with qual := qual } } : State) shf
  generalize ({ u with scu := { u.scu with qual := qual } } : State).setShf shf = v at hframe hscu ⊢
  refine ⟨((hdepths.setScu _).trans hframe).setScu _, (congrArg Scu.shf hscu :), (congrArg Scu.qual hscu :), rfl, fun k hk => ?_⟩
  exact (congrArg (fun x : Scu => Tab.get Channel.reset x.channels k) hscu :).trans (hdepth k hk)

/-- Step 5 of R153: the maps, and the shades that follow from them. -/
theorem State.setMaps_rederived (u : State) : ShadeFrame u ((u.setMaps maps).rederiveList (List.range 8)).refreshClear
    ∧ (∃ x : Tab SegShade, ((u.setMaps maps).rederiveList (List.range 8)).refreshClear.scu = { u.scu with shades := x })
    ∧ ∀ k < 8, (((u.setMaps maps).rederiveList (List.range 8)).refreshClear.shade k).map = byteAt maps k
        ∧ (((u.setMaps maps).rederiveList (List.range 8)).refreshClear.shade k).shaded
            = ((u.setMaps maps).rederiveList (List.range 8)).refreshClear.derivedShade k := by
  have hmap k (hk : k < 8) : ((u.setMaps maps).shade k).map = byteAt maps k :=
    (congrArg SegShade.map (u.shade_foldl_modShade (fun k g => { g with map := byteAt maps k }) List.nodup_range k)).trans
      (congrArg SegShade.map (if_pos (List.mem_range.2 hk)))
  obtain ⟨x, hx⟩ := u.foldl_modShade_eq (fun k g => { g with map := byteAt maps k }) (List.range 8)
  have hmaps : u.setMaps maps = { u with scu := { u.scu with shades := x } } := hx
  have hframe : ShadeFrame u (u.setMaps maps) := hmaps ▸ (ShadeFrame.refl u).setScu _
  have h := (Reshaded.rederiveList (List.range 8) (u.setMaps maps)).refreshClear
  have hscu : (u.setMaps maps).scu = { u.scu with shades := x } := by rw [hmaps]
  generalize ((u.setMaps maps).rederiveList (List.range 8)).refreshClear = t at h ⊢
  generalize u.setMaps maps = v at hmap hframe h hscu
  refine ⟨hframe.trans h.frame, ⟨t.scu.shades, ?_⟩, fun k hk => ⟨(h.map k).trans (hmap k hk), ?_⟩⟩
  · obtain ⟨hshf, hqual, hmax⟩ := h.settings
    have hchannels := h.channels
    rw [hscu] at hshf hqual hmax hchannels
    generalize t.scu = y at hshf hqual hmax hchannels
    obtain ⟨channels, shades, shf, qual, shadeMax⟩ := y
    cases hshf
    cases hqual
    cases hmax
    cases hchannels
    rfl
  · rw [h.shaded, h.derivedShade, if_pos (List.mem_range.2 hk)]

theorem State.pending_setMaps_rederived (u : State) (hd : u.dPending .sensorStuck = true) (hp : u.pPending .sensorStuck = true) :
    ((u.setMaps maps).rederiveList (List.range 8)).refreshClear.dPending .sensorStuck = true
      ∧ ((u.setMaps maps).rederiveList (List.range 8)).refreshClear.pPending .sensorStuck = true := by
  obtain ⟨x, hx⟩ := u.foldl_modShade_eq (fun k g => { g with map := byteAt maps k }) (List.range 8)
  have hmaps : u.setMaps maps = { u with scu := { u.scu with shades := x } } := hx
  have hd' : (u.setMaps maps).dPending .sensorStuck = true := by rw [hmaps]; exact hd
  have hp' : (u.setMaps maps).pPending .sensorStuck = true := by rw [hmaps]; exact hp
  refine ⟨(State.dPending_refreshClear _ _).trans ?_, State.pPending_refreshClear ?_⟩
  · exact (settleKeeps_dPending .sensorStuck).rederiveList (fun _ _ _ hu => hu) _ hd'
  · exact (settleKeeps_pPending .sensorStuck).rederiveList (fun _ _ _ hu => hu) _ hp'

/-- A channel that is shaded longer than a limit `x` in seconds (R147). -/
def Channel.outlasts (c : Channel) (now : Millis) (x : Nat) : Bool :=
  c.state == .shaded && (x != 0 && decide (x * 1000 < since now c.shadeStart))

theorem State.setShade_cases : ShadeFrame s (s.setShade maps shf qual shadeMax depths)
    ∧ ((s.setShade maps shf qual shadeMax depths).scu.shf = shf ∧ (s.setShade maps shf qual shadeMax depths).scu.qual = qual
      ∧ (s.setShade maps shf qual shadeMax depths).scu.shadeMax = shadeMax)
    ∧ (∀ k < 8, ((s.setShade maps shf qual shadeMax depths).shade k).map = byteAt maps k
        ∧ ((s.setShade maps shf qual shadeMax depths).shade k).shaded
            = (s.setShade maps shf qual shadeMax depths).derivedShade k)
    ∧ ∀ k < 8, (s.setShade maps shf qual shadeMax depths).channel k
          = (if (s.channel k).outlasts s.ms shadeMax then
              { (s.channel k).setDepth (clamp 1 8 (byteAt depths k).toNat) with state := .stuck }
            else (s.channel k).setDepth (clamp 1 8 (byteAt depths k).toNat))
        ∧ ((s.channel k).outlasts s.ms shadeMax = true → (s.setShade maps shf qual shadeMax depths).dPending .sensorStuck = true
          ∧ (s.setShade maps shf qual shadeMax depths).pPending .sensorStuck = true) := by
  obtain ⟨hframe, hshf, hqual, hmax, hchannel⟩ := s.shadeSettings_cases depths shf qual shadeMax
  have hchecked := StuckChecked.foldl List.nodup_range (l := List.range 8) (s.shadeSettings shf qual shadeMax depths)
  rw [State.setShade_eq]
  generalize s.shadeSettings shf qual shadeMax depths = a at hframe hshf hqual hmax hchannel hchecked ⊢
  have hpending := State.pending_setMaps_rederived maps ((List.range 8).foldl State.stuckCheck a)
  obtain ⟨hmapped, ⟨y, hy⟩, hshade⟩ := State.setMaps_rederived maps ((List.range 8).foldl State.stuckCheck a)
  generalize (List.range 8).foldl State.stuckCheck a = b at hchecked hpending hmapped hy hshade ⊢
  generalize ((b.setMaps maps).rederiveList (List.range 8)).refreshClear = t at hpending hmapped hy hshade ⊢
  obtain ⟨x, hx⟩ := hchecked.scu
  refine ⟨(hframe.trans hchecked.frame).trans hmapped, ⟨?_, ?_, ?_⟩, hshade, fun k hk => ?_⟩
  · rw [hy, ← hshf]; exact (congrArg Scu.shf hx :)
  · rw [hy, ← hqual]; exact (congrArg Scu.qual hx :)
  · rw [hy, ← hmax]; exact (congrArg Scu.shadeMax hx :)
  · have hdue : a.overdue k = (s.channel k).outlasts s.ms shadeMax := by
      rw [State.overdue, State.tooLong, State.shadeLimit, hchannel k hk, State.ms_of_shadeFrame hframe, hmax]
      rfl
    have hwritten : t.channel k = b.channel k := (congrArg (fun x : Scu => Tab.get Channel.reset x.channels k) hy :)
    refine ⟨?_, fun hout => ?_⟩
    · rw [hwritten, hchecked.channel, hchannel k hk, hdue]
      exact if_congr (and_iff_right (List.mem_range.2 hk)) rfl rfl
    · obtain ⟨hd, hp⟩ := hchecked.raised k (List.mem_range.2 hk) (hdue.trans hout)
      exact hpending hd hp

end

theorem Channel.outlasts_iff (c : Channel) (now : Millis) (x : Byte) :
    c.outlasts now x.toNat = true ↔ c.state = .shaded ∧ x ≠ 0 ∧ x.toNat * 1000 < since now c.shadeStart := by
  rw [Channel.outlasts, Bool.and_eq_true, Bool.and_eq_true, beq_iff_eq, bne_iff_ne, decide_eq_true_iff, ne_eq, ne_eq, Byte.eq_zero_iff]

theorem shadeLimited_iff (f : BitVec 16) (d : BitVec 64) :
    shadeLimited f d = true ↔ 256 < f.toNat ∨ ∃ k < 8, (byteAt d k).toNat = 0 ∨ 8 < (byteAt d k).toNat := by
  rw [shadeLimited, Bool.or_eq_true, decide_eq_true_iff, List.any_eq_true]
  refine or_congr_right (exists_congr fun k => ?_)
  rw [List.mem_range, bne_iff_ne, clamp_ne_self_iff (by decide)]
  exact and_congr_right fun _ => by omega

/-- SET_SHADE's effect does not depend on what its port has received, and leaves the ports and the supervision countdown. -/
theorem ShadeFrame.port {s t : State} (h : ShadeFrame s t) (p : Port) : t.txn p = s.txn p ∧ t.pau.supLeft = s.pau.supLeft :=
  ⟨(congrArg (fun v : State => v.txn p) h.rest :), (congrArg (fun v : State => v.pau.supLeft) h.rest :)⟩

theorem SettleFrame.of_setTxn {s v : State} {n : Txn} {x : Scu} (h : SettleFrame { s.setTxn .dispatch n with scu := x } v) :
    SettleFrame { s with scu := x } v := h

/-- Settles O46: the five steps of R153, read off the state they leave. -/
theorem setShade : Obligations.SetShade := by
  unfold Obligations.SetShade
  intro s m d f q x hr
  have hcode (limited : Bool) (hlimited : limited = true ↔ 256 < f.toNat ∨ ∃ k < 8, (byteAt d k).toNat = 0 ∨ 8 < (byteAt d k).toNat) :
      takenCode (shadeLimited f d) = if limited then .clamped else .done := by
    rw [takenCode, Bool.eq_iff_iff.2 ((shadeLimited_iff f d).trans hlimited.symm)]
  obtain ⟨t, hexec, hdelivered, ⟨hshf, hqual, hmax⟩, hshade, hchannel, hframe⟩ :
      ∃ t, exec (.setShade m f q x d) s = .next t ∧ Delivered s t .dispatch (takenCode (shadeLimited f d)) ∧
        (t.scu.shf = min 256 f.toNat ∧ t.scu.qual = q.toNat ∧ t.scu.shadeMax = x.toNat)
        ∧ (∀ k < 8, (t.shade k).map = byteAt m k ∧ (t.shade k).shaded = t.derivedShade k)
        ∧ (∀ k < 8, t.channel k = (if (s.channel k).outlasts s.ms x.toNat then
              { (s.channel k).setDepth (clamp 1 8 (byteAt d k).toNat) with state := .stuck }
            else (s.channel k).setDepth (clamp 1 8 (byteAt d k).toNat))
          ∧ ((s.channel k).outlasts s.ms x.toNat = true → t.dPending .sensorStuck = true ∧ t.pPending .sensorStuck = true))
        ∧ SettleFrame { s with scu := t.scu } t := by
    refine exec_acted (w := ⟨.dispatch, _, _⟩) rfl hr rfl
      (f := fun u => u.setShade m (min 256 f.toNat) q.toNat x.toNat d) (fun _ => rfl) (fun u => ?_) fun n => ?_
    · exact (u.setShade_cases m d (min 256 f.toNat) q.toNat x.toNat).1.port .protection
    · obtain ⟨hframe, hsettings, hshade, hchannel⟩ := State.setShade_cases (s.setTxn .dispatch n) m d (min 256 f.toNat) q.toNat x.toNat
      have hsettles := hframe.settles
      generalize (s.setTxn .dispatch n).setShade m (min 256 f.toNat) q.toNat x.toNat d = v at hsettings hshade hchannel hsettles ⊢
      exact ⟨hsettings, hshade, hchannel, hsettles.of_setTxn⟩
  refine ⟨t, hexec, fun limited hlimited => hcode limited hlimited ▸ hdelivered, hshf, hqual, hmax, hshade, fun k hk n hn stuck hstuck => ?_, hframe⟩
  obtain ⟨hwritten, hraised⟩ := hchannel k hk
  have hout : (s.channel k).outlasts s.ms x.toNat = stuck :=
    Bool.eq_iff_iff.2 (((s.channel k).outlasts_iff s.ms x).trans hstuck.symm)
  rw [hout] at hwritten hraised
  refine ⟨hwritten.trans ?_, hraised⟩
  subst hn
  cases stuck <;> rfl

end Sys2Proof.Machine
end

section
/-! PROOFS. Deadline and supervision (R164, R165, R167 to R169). -/

-- One proof after another: begun all at once, the proofs of the whole text outgrow the check's memory.
set_option Elab.async false

namespace Sys2Proof.Machine

/-! ### Settings -/

theorem exec_setDeadline {s : State} {v : BitVec 16} (hr : s.accepts (.setDeadline v) = true) :
    ∃ t, exec (.setDeadline v) s = .next t
      ∧ Delivered s t .protection (if v.toNat = 0 ∨ 600 < v.toNat then .clamped else .done)
      ∧ t.pau.deadline = (if v.toNat = 0 then 1 else if 600 < v.toNat then 600 else v.toNat)
      ∧ t.bare = { s with pau := { s.pau with deadline := t.pau.deadline } }.bare := by
  have hcode : takenCode (clamp 1 600 v.toNat != v.toNat) = if v.toNat = 0 ∨ 600 < v.toNat then .clamped else .done := by
    rw [takenCode_clamp (by decide)]
    exact if_congr (by omega) rfl rfl
  have hvalue : clamp 1 600 v.toNat = if v.toNat = 0 then 1 else if 600 < v.toNat then 600 else v.toNat := by
    rw [clamp]
    split
    next h => rw [h]; rfl
    next => split <;> omega
  rw [← hcode, ← hvalue]
  exact exec_acted (w := ⟨.protection, _, _⟩) rfl hr rfl
    (f := fun u => { u with pau := { u.pau with deadline := clamp 1 600 v.toNat } }) (fun _ => rfl) (fun _ => ⟨rfl, rfl⟩)
    fun _ => ⟨rfl, rfl⟩

theorem exec_supervise {s : State} {v : Byte} (hr : s.accepts (.supervise v) = true) :
    ∃ t, exec (.supervise v) s = .next t
      ∧ (t.txn .protection).phase = .completion ∧ (t.txn .protection).completion = some .done
      ∧ t.dpt = s.dpt ∧ t.pau.supPeriod = v.toNat
      ∧ t.pau.supLeft = (if v = 0 then none else some (v.toNat * 10))
      ∧ t.bare = { s with pau := { s.pau with supPeriod := v.toNat } }.bare := by
  obtain ⟨w, hw⟩ : ∃ w : WireCmd, wire (.supervise v) = some w ∧ w.port = .protection := ⟨_, rfl, rfl⟩
  obtain ⟨hw, hp⟩ := hw
  obtain ⟨u, hu⟩ : ∃ u : State, u = s.setTxn w.port (Txn.received w) := ⟨_, rfl⟩
  have hexec : exec (.supervise v) s
      = .next (({ u with pau := u.pau.supervise v.toNat } : State).afterDelivery w .done none) := by
    rw [hu]
    exact congrArg (Host.Outcome.next) (deliverWith_ready hw (fun t => ({ t with pau := t.pau.supervise v.toNat }, .done))
      (fun _ => none) hr)
  refine ⟨_, hexec, ?_, ?_, ?_, ?_, ?_, ?_⟩
  · rw [← hp, State.afterDelivery_txn]; rfl
  · rw [← hp, State.afterDelivery_txn]; rfl
  · have hother := State.afterDelivery_other ({ u with pau := u.pau.supervise v.toNat } : State) w .done none
    rw [hp] at hother
    refine hother.trans ?_
    rw [hu, hp]
    rfl
  · rw [State.afterDelivery_supPeriod]
    rfl
  · rw [State.afterDelivery_supLeft, hp]
    by_cases hv : v = 0
    · subst hv
      rfl
    · have hne : v.toNat ≠ 0 := fun h => hv ((Byte.eq_zero_iff v).2 h)
      rw [if_neg hv]
      exact if_pos ⟨rfl, hne⟩
  · rw [State.afterDelivery_bare, hu, hp]
    rfl

/-! ### Expiries -/

section
variable {s : State} {d : Nat}

theorem exec_deadlineExpiry (hd : s.pau.deadlineLeft = some d) : exec .deadlineExpiry s = .next (s.elapse d).deadlineEnd := by
  rw [show exec .deadlineExpiry s = execDeadlineExpiry s from rfl, execDeadlineExpiry, hd]

theorem exec_supervisionExpired (hd : s.pau.supLeft = some d) : exec .supervisionExpired s = .next (s.elapse d).supervisionEnd := by
  rw [show exec .supervisionExpired s = execSupervisionExpired s from rfl, execSupervisionExpired, hd]

/-- The state in which a supervision expiry decides whether it engages defocus (R169). -/
def State.unsupervised (s : State) : State :=
  { s with pau := { s.pau with supLeft := none } }.raiseBoth .supervisionExpired .supervisionExpired

theorem State.supervisionEnd_eq (s : State) :
    s.supervisionEnd = if s.pau.defocus then s.unsupervised else s.unsupervised.engageDefocus .supervision := rfl

/-- Events that are pending stay so through an engagement. -/
theorem State.pending_engageDefocus (s : State) (c : Cause) {e : DEvent} {p : PEvent} (hd : s.dPending e = true)
    (hp : s.pPending p = true) : (s.engageDefocus c).dPending e = true ∧ (s.engageDefocus c).pPending p = true := by
  have hmoved := s.defocusMoved_offTable c
  have hdm : (s.defocusMoved c).dPending e = true := (congrArg (fun v : State => v.dPending e) hmoved :).trans hd
  have hpm : (s.defocusMoved c).pPending p = true := (congrArg (fun v : State => v.pPending p) hmoved :).trans hp
  have hdk : (s.defocusMarked c).dPending e = true := by
    rw [State.defocusMarked, State.dPending_refreshClear, State.dPending_raiseD_iff, hdm, Bool.true_or]
  have hpk : (s.defocusMarked c).pPending p = true := State.pPending_refreshClear hpm
  rw [State.engageDefocus_eq_ite]
  generalize s.defocusMarked c = m at hdk hpk ⊢
  split
  · exact ⟨hdk, by rw [State.pPending_raiseP_iff, hpk, Bool.true_or]⟩
  · exact ⟨hdk, hpk⟩

theorem State.deadlineEnd_of_departing (s : State) (h : 0 < s.departingCount) : s.deadlineEnd
    = ({ s with pau := { s.pau with deadlineLeft := none, lateCount := s.departingCount } } : State).raiseP .defocusLate :=
  if_pos h

theorem State.deadlineEnd_of_none (s : State) (h : ¬ 0 < s.departingCount) :
    s.deadlineEnd = { s with pau := { s.pau with deadlineLeft := none } } :=
  if_neg h

end

/-- Settles O52: the two settings and the two expiries. -/
theorem protectionTimers : Obligations.ProtectionTimers := by
  unfold Obligations.ProtectionTimers
  refine ⟨fun s => ⟨fun _ => exec_setDeadline, fun _ => exec_supervise⟩, fun s d => ⟨fun hd => ⟨_, exec_deadlineExpiry hd, ?_⟩,
    fun hd => ⟨_, exec_supervisionExpired hd, ?_⟩⟩⟩
  · by_cases hdeparting : 0 < s.departingCount
    · rw [(s.elapse d).deadlineEnd_of_departing hdeparting]
      exact ⟨rfl, rfl, fun _ => ⟨rfl, State.pPending_raiseP _ _⟩, fun h => absurd hdeparting (by omega), rfl, rfl, rfl, rfl, rfl⟩
    · rw [(s.elapse d).deadlineEnd_of_none hdeparting]
      exact ⟨rfl, rfl, fun h => absurd h hdeparting, fun _ => ⟨rfl, rfl⟩, rfl, rfl, rfl, rfl, rfl⟩
  · obtain ⟨hd, hp⟩ := State.pPending_raiseBoth ({ s.elapse d with pau := { (s.elapse d).pau with supLeft := none } } : State)
      .supervisionExpired .supervisionExpired
    rw [State.supervisionEnd_eq]
    split
    next hdefocus =>
      exact ⟨rfl, rfl, rfl, hd, hp, fun h => absurd (hdefocus.symm.trans h) Bool.noConfusion, fun _ => ⟨hdefocus, rfl, rfl, rfl, rfl⟩,
        fun _ => rfl⟩
    next hdefocus =>
      obtain ⟨hd', hp'⟩ := (s.elapse d).unsupervised.pending_engageDefocus .supervision hd hp
      have hengaged := (s.elapse d).unsupervised.defocusEngaged_engageDefocus .supervision
      have hframe := (s.elapse d).unsupervised.engageDefocus_frame .supervision
      have hpau := (s.elapse d).unsupervised.pau_engageDefocus .supervision
      have hms := (congrArg (fun v : State => v.ms) hframe.2.2.2.2 :)
      generalize (s.elapse d).unsupervised.engageDefocus .supervision = t at hd' hp' hengaged hframe hpau hms ⊢
      obtain ⟨hstill, -⟩ := hframe
      refine ⟨by rw [hpau]; rfl, by rw [hpau]; rfl, hms, hd', hp', fun _ => hengaged, fun h => absurd h hdefocus, hstill⟩

end Sys2Proof.Machine
end

section
/-! PROOFS. Stow engages (R137, R159): the moves of the field. -/

-- One proof after another: begun all at once, the proofs of the whole text outgrow the check's memory.
set_option Elab.async false

namespace Sys2Proof.Machine

/-! ### The move of one heliostat -/

/-- The record of a heliostat that stow engagement has moved (R159). -/
def State.stowedHel (s : State) (i : Nat) : Hel :=
  match (s.hel i).state with
  | .onTarget => { s.hel i with
      state := .stowed
      onAlternate := false
      departing := true
      departureZone := some (s.joinZone (s.hel i)) }
  | .queued | .standby => { s.hel i with state := .stowed }
  | .offline | .faulted | .excluded | .stowed | .absent => s.hel i

section
variable (s : State) (i j z k : Nat)

theorem State.stowedHel_of_onTarget (h : (s.hel i).state = .onTarget) : s.stowedHel i = { s.hel i with
    state := .stowed
    onAlternate := false
    departing := true
    departureZone := some (s.joinZone (s.hel i)) } := by
  rw [State.stowedHel, h]

theorem State.still_stowedHel : (s.stowedHel i).still = (s.hel i).still := by
  unfold State.stowedHel
  split <;> rfl

/-- What the engagement's move of one heliostat can be (R159). -/
theorem State.stowOne_cases (P : State → Prop) (departs : (s.hel i).state = .onTarget → P (s.depart i .stowed))
    (leaves : (s.hel i).state = .queued → P (s.dequeue i .stowed))
    (stands : (s.hel i).state = .standby → P (s.modHel i fun h => { h with state := .stowed }))
    (kept : P s) : P (s.stowOne i) := by
  unfold State.stowOne
  split
  next h => exact departs h
  next h => exact leaves h
  next h => exact stands h
  all_goals exact kept

theorem State.stowOne_frame : SettleFrame s (s.stowOne i) :=
  s.stowOne_cases i (SettleFrame s) (fun _ => s.depart_frame i _) (fun _ => s.dequeue_frame i _) (fun _ => .modHel s i rfl) (.refl s)

theorem State.stowOne_offTable : (s.stowOne i).offTable = s.offTable :=
  s.stowOne_cases i (fun u => u.offTable = s.offTable) (fun _ => s.departFrom_offTable _ i _) (fun _ => rfl) (fun _ => rfl) rfl

theorem State.hel_stowOne : (s.stowOne i).hel j = if j = i then s.stowedHel i else s.hel j := by
  unfold State.stowOne
  split
  next h => rw [State.hel_depart, State.stowedHel, h]
  next h => rw [State.hel_dequeue, State.stowedHel, h]
  next h => rw [State.hel_modHel, State.stowedHel, h]
  all_goals
    next h =>
      rw [State.stowedHel, h]
      split
      next hj => rw [hj]
      next => rfl

theorem State.stowOne_of_stowed (h : (s.hel i).state = .stowed) : s.stowOne i = s := by
  rw [State.stowOne, h]

theorem State.pendingDepartures_stowOne : ((s.stowOne i).zone z).pendingDepartures =
    if (s.hel i).state = .onTarget ∧ s.joinZone (s.hel i) = z then (s.zone z).pendingDepartures + 1
    else (s.zone z).pendingDepartures := by
  have hkept (h : (s.hel i).state ≠ .onTarget) : (s.zone z).pendingDepartures =
      if (s.hel i).state = .onTarget ∧ s.joinZone (s.hel i) = z then (s.zone z).pendingDepartures + 1
      else (s.zone z).pendingDepartures := (if_neg fun hin => h hin.1).symm
  unfold State.stowOne
  split
  next h =>
    rw [State.zone_depart]
    by_cases hz : z = s.joinZone (s.hel i)
    · rw [if_pos hz, if_pos ⟨h, hz.symm⟩]
    · rw [if_neg hz, if_neg fun hin => hz hin.2.symm]
  next h =>
    rw [← hkept (by rw [h]; exact HState.noConfusion), State.zone_dequeue]
    split <;> rfl
  all_goals
    next h => exact hkept (by rw [h]; exact HState.noConfusion)

/-- The urgent queues only gain entries. -/
theorem State.urgent_subset_stowOne : (s.seg k).urgent ⊆ ((s.stowOne i).seg k).urgent := by
  refine s.stowOne_cases i (fun u => (s.seg k).urgent ⊆ (u.seg k).urgent) (fun _ => ?_) (fun _ => List.Subset.refl _)
    (fun _ => List.Subset.refl _) (List.Subset.refl _)
  rw [s.urgentEntered_depart i .stowed k]
  dsimp only
  split
  · exact List.subset_append_left _ _
  · exact List.Subset.refl _

end

/-! ### The moves of a list of heliostats -/

section
variable (s : State) (l : List Nat)

theorem State.foldl_stowOne_frame : SettleFrame s (l.foldl State.stowOne s) := by
  induction l generalizing s with
  | nil => exact .refl s
  | cons a l ih => exact (s.stowOne_frame a).trans (ih _)

theorem State.foldl_stowOne_offTable : (l.foldl State.stowOne s).offTable = s.offTable := by
  induction l generalizing s with
  | nil => rfl
  | cons a l ih => exact (ih _).trans (s.stowOne_offTable a)

/-- A heliostat moved before is not moved again. -/
theorem State.stowedHel_of_moved {u : State} {i : Nat} (hmoved : u.hel i = s.stowedHel i) : u.stowedHel i = u.hel i := by
  unfold State.stowedHel at hmoved ⊢
  split at hmoved <;> simp_all

theorem State.hel_foldl_stowOne (i : Nat) : (l.foldl State.stowOne s).hel i = if i ∈ l then s.stowedHel i else s.hel i := by
  induction l using List.reverseRecOn generalizing i with
  | nil => exact (if_neg List.not_mem_nil).symm
  | append_singleton l a ih =>
    have hjoin := (s.foldl_stowOne_frame l).joinZone_eq
    rw [List.foldl_concat, State.hel_stowOne]
    by_cases hi : i = a
    · subst hi
      rw [if_pos rfl, if_pos (List.mem_append_right l (List.mem_singleton_self i))]
      have hrecord := ih i
      by_cases hl : i ∈ l
      · rw [if_pos hl] at hrecord
        exact (s.stowedHel_of_moved hrecord).trans hrecord
      · rw [if_neg hl] at hrecord
        rw [State.stowedHel, State.stowedHel, hrecord, hjoin]
    · rw [if_neg hi, ih]
      exact if_congr (by simp [hi]) rfl rfl

theorem State.hel_foldl_stowOne_of_notMem {a : Nat} (ha : a ∉ l) : (l.foldl State.stowOne s).hel a = s.hel a := by
  rw [State.hel_foldl_stowOne, if_neg ha]

theorem State.mem_urgent_foldl_stowOne {i : Nat} (hi : i ∈ l) (ho : (s.hel i).state = .onTarget) :
    i ∈ ((l.foldl State.stowOne s).seg (s.hel i).segment).urgent := by
  induction l using List.reverseRecOn with
  | nil => cases hi
  | append_singleton l a ih =>
    rw [List.foldl_concat]
    by_cases hl : i ∈ l
    · exact State.urgent_subset_stowOne _ _ _ (ih hl)
    · obtain rfl : i = a := by simpa [hl] using hi
      have hhel := s.hel_foldl_stowOne_of_notMem l hl
      rw [← hhel]
      generalize l.foldl State.stowOne s = u at hhel ⊢
      have hmove : u.stowOne i = u.depart i .stowed := by rw [State.stowOne, hhel, ho]
      rw [hmove]
      exact u.mem_urgent_depart i .stowed

/-- The zones' pending departures count the heliostats that depart, each once (R61). -/
theorem State.pendingDepartures_foldl_stowOne (z : Nat) : ((l.foldl State.stowOne s).zone z).pendingDepartures =
    (s.zone z).pendingDepartures + (s.aimedAmong l z).card := by
  induction l using List.reverseRecOn with
  | nil => rfl
  | append_singleton l a ih =>
    have hhel := s.hel_foldl_stowOne l a
    have hjoin := (s.foldl_stowOne_frame l).joinZone_eq
    rw [List.foldl_concat, State.pendingDepartures_stowOne, ih, hjoin]
    by_cases ha : a ∈ l
    · have hsame : s.aimedAmong (l ++ [a]) z = s.aimedAmong l z := by
        ext i
        have hi : i = a → i ∈ l := (· ▸ ha)
        rw [State.mem_aimedAmong, State.mem_aimedAmong, List.mem_append, List.mem_singleton, or_iff_left_of_imp hi]
      have hmoved : ((l.foldl State.stowOne s).hel a).state ≠ .onTarget := by
        rw [State.state_foldl_stowOne, if_pos ha]
        cases (s.hel a).state <;> exact HState.noConfusion
      rw [hsame, if_neg fun h => hmoved h.1]
    · have hnew : a ∉ s.aimedAmong l z := fun h => ha ((s.mem_aimedAmong l).1 h).1
      rw [if_neg ha] at hhel
      rw [hhel, State.aimedAmong_concat]
      by_cases ho : (s.hel a).state = .onTarget ∧ s.joinZone (s.hel a) = z
      · rw [if_pos ho, if_pos ho, Finset.card_insert_of_notMem hnew, Nat.add_assoc]
      · rw [if_neg ho, if_neg ho]

end

/-! ### The engagement -/

/-- The field once an engagement has moved it, before its events and FIELD_CLEAR (R159, R137). -/
def State.stowMoved (s : State) : State := (s.present.foldl State.stowOne s).modSegs Seg.owe

section
variable (s : State)

theorem State.engageStow_eq : s.engageStow = (s.stowMoved.raiseBoth .stowChange .stowChange).refreshClear := rfl

theorem State.pending_engageStow : s.engageStow.dPending .stowChange = true ∧ s.engageStow.pPending .stowChange = true := by
  obtain ⟨hd, hp⟩ := State.pPending_raiseBoth s.stowMoved .stowChange .stowChange
  exact ⟨(State.dPending_refreshClear _ _).trans hd, State.pPending_refreshClear hp⟩

theorem State.hel_engageStow (i : Nat) : s.engageStow.hel i = if i ∈ s.present then s.stowedHel i else s.hel i := by
  rw [State.engageStow_eq, State.refreshClear_hel, State.raiseBoth_hel, State.stowMoved, State.modSegs_hel, State.hel_foldl_stowOne]

theorem State.state_engageStow (i : Nat) : (s.engageStow.hel i).state = (s.hel i).state.stowedBy := by
  rw [State.engageStow_eq, State.refreshClear_hel, State.raiseBoth_hel, State.stowMoved, State.modSegs_hel, State.state_stowed]

theorem State.seg_engageStow {k : Nat} (hk : k < 8) :
    s.engageStow.seg k = Seg.owe ((s.present.foldl State.stowOne s).seg k) := by
  rw [State.engageStow_eq, State.refreshClear_seg, State.raiseBoth_seg, State.stowMoved, State.seg_modSegs _ _ hk]

theorem Seg.owe_fields (g : Seg) : g.owe.urgent = g.urgent ∧ g.owe.owed = if g.state = .disabled then g.owed else true := by
  unfold Seg.owe
  split
  · exact ⟨rfl, rfl⟩
  · exact ⟨rfl, rfl⟩

theorem State.seg_modSegs_of_ge (f : Seg → Seg) {k : Nat} (hk : ¬ k < 8) : (s.modSegs f).seg k = s.seg k :=
  Tab.get_update_notMem _ _ _ _ fun h => hk (List.mem_range.1 h)

theorem State.offRecords_modSegs (f : Seg → Seg) : (s.modSegs f).offRecords = s.offRecords := rfl

theorem State.urgent_engageStow (k : Nat) : (s.engageStow.seg k).urgent = ((s.present.foldl State.stowOne s).seg k).urgent := by
  by_cases hk : k < 8
  · rw [s.seg_engageStow hk, (Seg.owe_fields _).1]
  · rw [State.engageStow_eq, State.refreshClear_seg, State.raiseBoth_seg, State.stowMoved, State.seg_modSegs_of_ge _ _ hk]

theorem State.zone_engageStow (z : Nat) : s.engageStow.zone z = (s.present.foldl State.stowOne s).zone z := by
  rw [State.engageStow_eq, State.refreshClear_zone, State.raiseBoth_zone, State.stowMoved, State.modSegs_zone]

/-- An engagement does what the model's `StowEngaged` says (R159, R137). -/
theorem State.stowEngaged_engageStow : StowEngaged s s.engageStow := by
  obtain ⟨-, -, -, hseg, -⟩ := s.foldl_stowOne_frame s.present
  refine ⟨s.state_engageStow, ⟨fun i ho => ?_, fun z => ?_⟩, fun k hk => ?_, s.pending_engageStow⟩
  · have hi := s.mem_present_of_onTarget ho
    rw [State.hel_engageStow, if_pos hi, s.stowedHel_of_onTarget i ho, State.urgent_engageStow]
    exact ⟨rfl, rfl, rfl, s.mem_urgent_foldl_stowOne s.present hi ho⟩
  · rw [State.zone_engageStow, State.pendingDepartures_foldl_stowOne, State.card_aimedAmong_present]
  · have hstate : ((s.present.foldl State.stowOne s).seg k).state = (s.seg k).state := (congrArg Seg.state (hseg k) :)
    have howed : ((s.present.foldl State.stowOne s).seg k).owed = (s.seg k).owed := (congrArg Seg.owed (hseg k) :)
    rw [s.seg_engageStow hk, (Seg.owe_fields _).2, hstate, howed]

/-- What an engagement leaves: every record but its collection, and everything outside the tables of the field. -/
theorem State.engageStow_rest : (∀ i, (s.engageStow.hel i).still = (s.hel i).still) ∧ s.engageStow.offRecords = s.offRecords := by
  refine ⟨fun i => ?_, ?_⟩
  · rw [State.hel_engageStow]
    split
    · exact s.still_stowedHel i
    · rfl
  · rw [State.engageStow_eq, State.offRecords_refreshClear, State.offRecords_raiseBoth]
    have hmoved := State.offRecords_of_offTable (s.foldl_stowOne_offTable s.present)
    rw [State.stowMoved]
    exact (State.offRecords_modSegs _ _).trans hmoved

end

end Sys2Proof.Machine
end

section
/-! PROOFS. Stow is released (R160, R137, R76), its commands and its line (R156 to R158). -/

-- One proof after another: begun all at once, the proofs of the whole text outgrow the check's memory.
set_option Elab.async false

namespace Sys2Proof.Machine

/-! ### The release's move of one heliostat -/

/-- A STOWED heliostat that returns to its queue at a release (R160). -/
def Hel.returns (h : Hel) : Bool := h.state == .stowed && h.assignment.isSome && !h.trackingError

theorem Hel.returns_iff (h : Hel) : h.returns = true ↔ h.state = .stowed ∧ h.assignment.isSome ∧ h.trackingError = false := by
  simp [Hel.returns, and_assoc]

/-- A record that a release has put into its queue (R160). -/
def Hel.unstowed (h : Hel) : Hel := if h.returns then { h with state := .queued } else h

theorem Hel.unstowed_unstowed (h : Hel) : h.unstowed.unstowed = h.unstowed := by
  unfold Hel.unstowed
  split
  · rfl
  · rfl

section
variable (s : State) (i j : Nat)

theorem State.unstowOne_of_returns (h : (s.hel i).returns = true) : s.unstowOne i = s.enqueue i :=
  if_pos ((Hel.returns_iff _).1 h)

theorem State.unstowOne_of_kept (h : ¬ (s.hel i).returns = true) : s.unstowOne i = s :=
  if_neg fun hin => h ((Hel.returns_iff _).2 hin)

theorem State.unstowOne_frame : SettleFrame s (s.unstowOne i) := by
  by_cases h : (s.hel i).returns = true
  · exact s.unstowOne_of_returns i h ▸ s.enqueue_frame i
  · exact (s.unstowOne_of_kept i h).symm ▸ .refl s

theorem State.offRecords_unstowOne : (s.unstowOne i).offRecords = s.offRecords := by
  by_cases h : (s.hel i).returns = true
  · rw [s.unstowOne_of_returns i h]; rfl
  · rw [s.unstowOne_of_kept i h]

theorem State.hel_unstowOne : (s.unstowOne i).hel j = if j = i then (s.hel i).unstowed else s.hel j := by
  by_cases h : (s.hel i).returns = true
  · rw [s.unstowOne_of_returns i h, State.hel_enqueue, Hel.unstowed, if_pos h]
  · rw [s.unstowOne_of_kept i h, Hel.unstowed, if_neg h]
    split
    next hj => rw [hj]
    next => rfl

end

section
variable (s : State) (l : List Nat)

theorem State.foldl_unstowOne_frame : SettleFrame s (l.foldl State.unstowOne s) ∧
    (l.foldl State.unstowOne s).offRecords = s.offRecords := by
  induction l generalizing s with
  | nil => exact ⟨.refl s, rfl⟩
  | cons a l ih =>
    obtain ⟨hframe, hrest⟩ := ih (s.unstowOne a)
    exact ⟨(s.unstowOne_frame a).trans hframe, hrest.trans (s.offRecords_unstowOne a)⟩

theorem State.hel_foldl_unstowOne (i : Nat) : (l.foldl State.unstowOne s).hel i = if i ∈ l then (s.hel i).unstowed else s.hel i := by
  induction l generalizing s with
  | nil => exact (if_neg List.not_mem_nil).symm
  | cons a l ih =>
    rw [List.foldl_cons, ih, State.hel_unstowOne]
    by_cases ha : i = a
    · subst ha
      rw [if_pos rfl, Hel.unstowed_unstowed, if_pos List.mem_cons_self]
      split <;> rfl
    · rw [if_neg ha]
      exact if_congr (by simp [ha]) rfl rfl

end

/-! ### A heliostat in no join list and no queue -/

/-- A heliostat in state `x` that stands in no join list and in no rejoin queue. -/
def State.Unlisted (s : State) (i : Nat) (x : HState) : Prop :=
  (s.hel i).state = x ∧ ∀ z, i ∉ (s.zone z).joinList ∧ i ∉ (s.zone z).queue

section
variable {s : State} {i : Nat} {x : HState}

theorem State.Unlisted.of_zones {t : State} (h : s.Unlisted i x) (hhel : (t.hel i).state = (s.hel i).state)
    (hzone : ∀ z, (i ∈ (t.zone z).joinList → ∃ y, i ∈ (s.zone y).joinList) ∧ (i ∈ (t.zone z).queue → ∃ y, i ∈ (s.zone y).queue)) :
    t.Unlisted i x := by
  obtain ⟨hstate, hlists⟩ := h
  refine ⟨hhel.trans hstate, fun z => ⟨fun hin => ?_, fun hin => ?_⟩⟩
  · obtain ⟨y, hy⟩ := (hzone z).1 hin
    exact (hlists y).1 hy
  · obtain ⟨y, hy⟩ := (hzone z).2 hin
    exact (hlists y).2 hy

theorem State.Unlisted.enqueue (h : s.Unlisted i x) {a : Nat} (ha : i ≠ a) : (s.enqueue a).Unlisted i x := by
  refine h.of_zones (by rw [State.hel_enqueue, if_neg ha]) fun z => ?_
  rw [State.zone_enqueue]
  split
  · exact ⟨fun hin => ⟨z, hin⟩, fun hin => ⟨z, (List.mem_append.1 hin).resolve_right fun h => ha (List.mem_singleton.1 h)⟩⟩
  · exact ⟨fun hin => ⟨z, hin⟩, fun hin => ⟨z, hin⟩⟩

theorem State.Unlisted.departFrom (h : s.Unlisted i x) {a : Nat} (ha : i ≠ a) (y : Nat) (dst : HState) :
    (s.departFrom y a dst).Unlisted i x := by
  refine h.of_zones (by rw [State.hel_departFrom, if_neg ha]) fun z => ?_
  rw [State.zone_departFrom]
  split
  · exact ⟨fun hin => ⟨y, List.mem_of_mem_erase hin⟩, fun hin => ⟨y, hin⟩⟩
  · exact ⟨fun hin => ⟨z, hin⟩, fun hin => ⟨z, hin⟩⟩

theorem State.Unlisted.reroute (h : s.Unlisted i x) {a y q : Nat} (ha : i ≠ a) (hq : (s.point q).zone ≠ y) :
    (s.reroute y a q).Unlisted i x := by
  refine h.of_zones (by rw [State.hel_reroute, if_neg ha]) fun z => ⟨fun hin => ⟨z, ?_⟩, fun hin => ⟨z, ?_⟩⟩
  · rw [State.joinList_reroute _ _ _ _ hq] at hin
    split at hin
    · exact List.mem_of_mem_erase hin
    · split at hin
      · exact (List.mem_append.1 hin).resolve_right fun h => ha (List.mem_singleton.1 h)
      · exact hin
  · rw [State.zone_reroute _ _ _ _ _ hq] at hin
    exact hin

/-- A member shed is another heliostat. -/
theorem State.Unlisted.shedOne (h : s.Unlisted i x) (z : Nat) : (s.shedOne z).Unlisted i x := by
  cases hl : (s.zone z).joinList.getLast? with
  | none => rwa [State.shedOne, hl]
  | some a =>
    have ha : i ≠ a := fun hi => (h.2 z).1 (hi ▸ List.mem_of_getLast? hl)
    rw [State.shedOne_of_newest hl]
    split
    next q hq =>
      obtain ⟨-, -, -, -, -, hother, -⟩ := (s.reroutePoint_eq_some z a q).1 hq
      exact h.reroute ha hother
    next => exact (h.departFrom ha z .queued).enqueue ha

/-- The head of a queue that is granted is another heliostat. -/
theorem State.Unlisted.grant (h : s.Unlisted i x) {z a : Nat} {rest : List Nat} (hq : (s.zone z).queue = a :: rest) :
    (s.grant z a).Unlisted i x := by
  have ha : i ≠ a := fun hi => (h.2 z).2 (by rw [hq, hi]; exact List.mem_cons_self)
  refine h.of_zones (by rw [State.hel_grant, if_neg ha]) fun y => ?_
  rw [State.zone_grant]
  refine ⟨fun hin => ⟨y, ?_⟩, fun hin => ⟨y, ?_⟩⟩
  · dsimp only at hin
    split at hin
    · exact (List.mem_append.1 hin).resolve_right fun h => ha (List.mem_singleton.1 h)
    · exact hin
  · dsimp only at hin
    split at hin
    · exact List.mem_of_mem_tail hin
    · exact hin

theorem State.Unlisted.zoneState (h : s.Unlisted i x) (z : Nat) (y : ZState) :
    (s.modZone z fun zn => { zn with state := y }).Unlisted i x := by
  refine h.of_zones rfl fun w => ?_
  rw [State.zone_modZone]
  split
  · exact ⟨fun hin => ⟨z, hin⟩, fun hin => ⟨z, hin⟩⟩
  · exact ⟨fun hin => ⟨w, hin⟩, fun hin => ⟨w, hin⟩⟩

theorem State.Unlisted.grantLoop (n : Nat) (h : s.Unlisted i x) (z : Nat) : (grantLoop n z s).1.Unlisted i x := by
  induction n generalizing s with
  | zero => exact h
  | succ n ih =>
    cases hq : (s.zone z).queue with
    | nil => rw [Machine.grantLoop, hq]; exact h
    | cons a rest =>
      rw [grantLoop_head n hq]
      split
      · exact ih (h.grant hq)
      · exact h

theorem State.Unlisted.settle (h : s.Unlisted i x) (z : Nat) : (s.settle z).Unlisted i x := by
  have hshed : (s.shedStep z).Unlisted i x := State.shedStep_keeps (P := fun u => u.Unlisted i x)
    (fun u hu => State.Unlisted.shedOne hu z) (fun _ _ _ hu => hu) h
  rw [State.settle_eq]
  unfold State.closeStep
  split
  · unfold State.overStep
    dsimp only
    split
    · exact hshed.zoneState z _
    · exact (hshed.zoneState z _ :)
  · unfold State.grantStep
    dsimp only
    split
    · exact hshed.zoneState z _
    · split
      · exact hshed.zoneState z _
      · exact (State.Unlisted.grantLoop _ hshed z).zoneState z _

theorem State.Unlisted.settleAll (h : s.Unlisted i x) : s.settleAll.Unlisted i x := by
  unfold State.settleAll State.settleList
  generalize List.range 12 = zs
  induction zs generalizing s with
  | nil => exact h
  | cons z zs ih => exact ih (h.settle z)

theorem State.Unlisted.foldl_unstowOne (h : s.Unlisted i x) (hno : ¬ (s.hel i).returns = true) (l : List Nat) :
    (l.foldl State.unstowOne s).Unlisted i x := by
  induction l generalizing s with
  | nil => exact h
  | cons a l ih =>
    rw [List.foldl_cons]
    by_cases hret : (s.hel a).returns = true
    · have ha : i ≠ a := fun hi => hno (hi ▸ hret)
      rw [s.unstowOne_of_returns a hret]
      exact ih (h.enqueue ha) (by rwa [State.hel_enqueue, if_neg ha])
    · rw [s.unstowOne_of_kept a hret]
      exact ih h hno

end

/-! ### A heliostat that waits in a queue or stands ON_TARGET -/

/-- Settlements move a heliostat of the field between its queue and the receiver alone. -/
theorem settleKeeps_aimedOrQueued (i : Nat) : SettleKeeps fun u => (u.hel i).state = .queued ∨ (u.hel i).state = .onTarget where
  shed u z h := by
    cases hl : (u.zone z).joinList.getLast? with
    | none => rwa [State.shedOne, hl]
    | some a =>
      rw [State.shedOne_of_newest hl]
      split
      · rw [State.hel_reroute]
        split
        next hj => exact hj ▸ h
        next => exact h
      · rw [State.hel_enqueue]
        split
        · exact .inl rfl
        next hj => rwa [State.hel_departFrom, if_neg hj]
  grant u z a _ h := by
    rw [State.hel_grant]
    split
    · exact .inr rfl
    · exact h
  zoneState _ _ _ h := h
  raise _ _ _ h := h

/-! ### The release -/

/-- The field once a release has queued it, before its events and settlements (R160, R137). -/
def State.unstowMoved (s : State) : State :=
  (s.present.foldl State.unstowOne s).modSegs fun g => { g with owed := false }

section
variable (s : State)

/-- The events and settlements that end a release. -/
def State.endStow : State :=
  ((s.raiseBoth .stowChange .stowChange).settleAll).refreshClear

theorem State.releaseStow_eq : s.releaseStow = s.unstowMoved.endStow := rfl

theorem State.offRecords_endStow : s.endStow.offRecords = s.offRecords := by
  rw [State.endStow, State.offRecords_refreshClear, State.offRecords_settleAll, State.offRecords_raiseBoth]

theorem State.still_endStow (i : Nat) : (s.endStow.hel i).still = (s.hel i).still := by
  obtain ⟨hsettled, -⟩ := State.settleAll_frame (s.raiseBoth .stowChange .stowChange)
  rw [State.endStow, State.refreshClear_hel, hsettled i]
  rfl

theorem Seg.owed_of_still {g g' : Seg} (h : g.still = g'.still) : g.owed = g'.owed := (congrArg Seg.owed h :)

theorem State.owed_settleAll (k : Nat) : (s.settleAll.seg k).owed = (s.seg k).owed := by
  obtain ⟨-, -, -, hseg, -⟩ := State.settleAll_frame s
  exact Seg.owed_of_still (hseg k)

theorem State.owed_endStow (k : Nat) : (s.endStow.seg k).owed = (s.seg k).owed := by
  rw [State.endStow, State.refreshClear_seg, State.owed_settleAll, State.raiseBoth_seg]

/-- The events that end a release stay pending through its settlements. -/
theorem State.pending_endStow : s.endStow.dPending .stowChange = true ∧ s.endStow.pPending .stowChange = true := by
  obtain ⟨hd, hp⟩ := State.pPending_raiseBoth s .stowChange .stowChange
  exact ⟨(State.dPending_refreshClear _ _).trans ((settleKeeps_dPending _).settleAll hd),
    State.pPending_refreshClear ((settleKeeps_pPending _).settleAll hp)⟩

theorem State.zonesSafe_endStow : s.endStow.zonesSafe := fun z hz =>
  zoneSafe_refreshClear (State.zonesSafe_settleAll _ z hz)

theorem State.Unlisted.modSegs {s : State} {i : Nat} {x : HState} (h : s.Unlisted i x) (f : Seg → Seg) :
    (s.modSegs f).Unlisted i x := h

theorem State.Unlisted.endStow {s : State} {i : Nat} {x : HState} (h : s.Unlisted i x) : (s.endStow.hel i).state = x := by
  have hraised : (s.raiseBoth .stowChange .stowChange).Unlisted i x := h
  rw [State.endStow, State.refreshClear_hel]
  exact hraised.settleAll.1

theorem State.aimedOrQueued_endStow {s : State} {i : Nat} (h : (s.hel i).state = .queued) :
    (s.endStow.hel i).state = .queued ∨ (s.endStow.hel i).state = .onTarget := by
  have hraised : ((s.raiseBoth .stowChange .stowChange).hel i).state = .queued := h
  rw [State.endStow, State.refreshClear_hel]
  exact (settleKeeps_aimedOrQueued i).settleAll (.inl hraised)

theorem State.offRecords_releaseStow : s.releaseStow.offRecords = s.offRecords := by
  rw [State.releaseStow_eq, State.offRecords_endStow, State.unstowMoved, State.offRecords_modSegs,
    (s.foldl_unstowOne_frame s.present).2]

theorem State.still_releaseStow (i : Nat) : (s.releaseStow.hel i).still = (s.hel i).still := by
  obtain ⟨hmoved, -⟩ := (s.foldl_unstowOne_frame s.present).1
  rw [State.releaseStow_eq, State.still_endStow, State.unstowMoved, State.modSegs_hel, hmoved i]

theorem State.owed_releaseStow {k : Nat} (hk : k < 8) : (s.releaseStow.seg k).owed = false := by
  rw [State.releaseStow_eq, State.owed_endStow, State.unstowMoved, State.seg_modSegs _ _ hk]

/-- A release does what the model's `StowReleased` says (R160, R137, R76). -/
theorem State.stowReleased_releaseStow : StowReleased s s.releaseStow := by
  refine ⟨fun i hs ha ht => ?_, fun i hkept hlists => ?_, fun k hk => s.owed_releaseStow hk,
    s.unstowMoved.pending_endStow.1, s.unstowMoved.pending_endStow.2, s.unstowMoved.zonesSafe_endStow⟩
  · have hi : i ∈ s.present := State.mem_present_of_ne (by rw [hs]; exact HState.noConfusion)
    have hqueued : (s.unstowMoved.hel i).state = .queued := by
      rw [State.unstowMoved, State.modSegs_hel, State.hel_foldl_unstowOne, if_pos hi, Hel.unstowed,
        if_pos ((Hel.returns_iff _).2 ⟨hs, ha, ht⟩)]
    exact State.aimedOrQueued_endStow hqueued
  · have hno : ¬ (s.hel i).returns = true := fun h => by
      obtain ⟨hs, ha, ht⟩ := (Hel.returns_iff _).1 h
      rcases hkept with h | h | h
      · exact h hs
      · rw [h] at ha
        cases ha
      · exact Bool.noConfusion (h.symm.trans ht)
    have hstart : s.Unlisted i (s.hel i).state := ⟨rfl, hlists⟩
    have hmoved : (s.present.foldl State.unstowOne s).Unlisted i (s.hel i).state := hstart.foldl_unstowOne hno s.present
    exact (hmoved.modSegs fun g => { g with owed := false }).endStow

end

/-! ### A source of stow changes (R158) -/

section
variable {s u t : State}

/-- What an engagement finds is the field, and of the segments whether they are enabled and owe a broadcast. -/
theorem StowEngaged.congr (h : StowEngaged u t) (hhels : u.hels = s.hels) (hpoints : u.points = s.points) (hzones : u.zones = s.zones)
    (hseg : ∀ k < 8, (u.seg k).state = (s.seg k).state ∧ (u.seg k).owed = (s.seg k).owed) : StowEngaged s t := by
  have hhel i : u.hel i = s.hel i := State.hel_congr hhels i
  have hpoint p : u.point p = s.point p := congrArg (Tab.get Point.reset · p) hpoints
  have hzone z : u.zone z = s.zone z := congrArg (Tab.get Zone.reset · z) hzones
  have hjoin g : u.joinZone g = s.joinZone g := by simp only [State.joinZone, State.aimedPoint, State.alternateOf, hpoint]
  have haimed z : u.aimedAt z = s.aimedAt z := by
    simp only [State.aimedAt, State.present_congr hhels, hhel, hjoin]
  obtain ⟨hstate, ⟨hdeparted, hpending⟩, howed, hevents⟩ := h
  simp only [hhel, hjoin] at hstate hdeparted
  simp only [hzone, haimed] at hpending
  refine ⟨hstate, ⟨hdeparted, hpending⟩, fun k hk => ?_, hevents⟩
  rw [howed k hk, (hseg k hk).1, (hseg k hk).2]

theorem StowReleased.congr (h : StowReleased u t) (hhels : u.hels = s.hels) (hzones : u.zones = s.zones) : StowReleased s t := by
  have hhel i : u.hel i = s.hel i := State.hel_congr hhels i
  have hzone z : u.zone z = s.zone z := congrArg (Tab.get Zone.reset · z) hzones
  obtain ⟨hreturned, hkept, hrest⟩ := h
  simp only [hhel] at hreturned
  simp only [hhel, hzone] at hkept
  exact ⟨hreturned, hkept, hrest⟩

variable (u) (before : Bool)

/-- What follows from a source of stow that changed leaves every record but its collection, and everything outside the tables
of the field. -/
theorem State.rederiveStow_rest : (∀ i, ((u.rederiveStow before).hel i).still = (u.hel i).still)
    ∧ (u.rederiveStow before).offRecords = u.offRecords := by
  unfold State.rederiveStow
  split
  · exact ⟨fun _ => rfl, rfl⟩
  · split
    · exact ⟨u.still_releaseStow, u.offRecords_releaseStow⟩
    · exact u.engageStow_rest

theorem State.rederiveStow_of_same (h : before = u.stowInEffect) : u.rederiveStow before = u := if_pos h

theorem State.rederiveStow_of_engaged (h : u.stowInEffect = true) : u.rederiveStow false = u.engageStow := by
  rw [State.rederiveStow, h, if_neg (by decide), if_neg (by decide)]

theorem State.rederiveStow_of_released (h : u.stowInEffect = false) : u.rederiveStow true = u.releaseStow := by
  rw [State.rederiveStow, h, if_neg (by decide), if_pos (by decide)]

end

/-! ### The part outside the field -/

section
variable {t u : State} (h : t.offRecords = u.offRecords)
include h

theorem State.pau_of_offRecords : t.pau = { u.pau with fieldClear := t.pau.fieldClear } :=
  (congrArg (fun v : State => { v.pau with fieldClear := t.pau.fieldClear }) h :)

theorem State.pins_of_offRecords : t.pins = u.pins := (congrArg (fun v : State => v.pins) h :)

theorem State.txn_of_offRecords (p : Port) : t.txn p = u.txn p := (congrArg (fun v : State => v.txn p) h :)

theorem State.sources_of_offRecords : t.pau.asserted = u.pau.asserted ∧ t.pau.stowCommand = u.pau.stowCommand
    ∧ t.stowInEffect = u.stowInEffect := by
  rw [State.stowInEffect, State.pau_of_offRecords h]
  exact ⟨rfl, rfl, rfl⟩

theorem State.rest_eq_of_offRecords : t.rest = u.rest := (congrArg State.rest h :)

end

/-! ### The stow command (R157) -/

/-- The state with the stow command written, before stow engages or is released by it. -/
def State.commandWritten (s : State) (b : Bool) : State := { s with pau := { s.pau with stowCommand := b } }

section
variable (s u : State) (b : Bool)

theorem State.setStowCommand_eq : s.setStowCommand b = (s.commandWritten b).rederiveStow s.stowInEffect := rfl

theorem State.stowInEffect_commandWritten : (s.commandWritten b).stowInEffect = (s.pau.asserted || b) := rfl

theorem State.setStowCommand_rest : (∀ i, ((s.setStowCommand b).hel i).still = (s.hel i).still)
    ∧ (s.setStowCommand b).offRecords = (s.commandWritten b).offRecords := by
  obtain ⟨hstill, hrest⟩ := (s.commandWritten b).rederiveStow_rest s.stowInEffect
  exact ⟨hstill, hrest⟩

/-- The sources of stow after the command is written. -/
theorem State.sources_setStowCommand : (s.setStowCommand b).pau.asserted = s.pau.asserted ∧ (s.setStowCommand b).pau.stowCommand = b
    ∧ (s.setStowCommand b).stowInEffect = (s.pau.asserted || b) :=
  State.sources_of_offRecords (s.setStowCommand_rest b).2

theorem State.setStowCommand_port (p : Port) : (s.setStowCommand b).txn p = s.txn p
    ∧ (s.setStowCommand b).pau.supLeft = s.pau.supLeft := by
  obtain ⟨-, hrest⟩ := s.setStowCommand_rest b
  refine ⟨State.txn_of_offRecords hrest p, ?_⟩
  rw [State.pau_of_offRecords hrest]
  rfl

variable {s}

/-- A command that leaves stow in effect as it was moves nothing. -/
theorem State.setStowCommand_of_same (h : s.stowInEffect = (s.pau.asserted || b)) : s.setStowCommand b = s.commandWritten b := by
  rw [State.setStowCommand_eq, State.rederiveStow_of_same]
  rwa [State.stowInEffect_commandWritten]

theorem State.stowEngaged_setStowCommand (h : s.stowInEffect = false) : StowEngaged s (s.setStowCommand true) := by
  rw [State.setStowCommand_eq, h,
    State.rederiveStow_of_engaged _ ((s.stowInEffect_commandWritten true).trans (Bool.or_true _))]
  exact (s.commandWritten true).stowEngaged_engageStow.congr rfl rfl rfl fun _ _ => ⟨rfl, rfl⟩

theorem State.stowReleased_setStowCommand (hc : s.pau.stowCommand = true) (ha : s.pau.asserted = false) :
    StowReleased s (s.setStowCommand false) := by
  have hbefore : s.stowInEffect = true := by rw [State.stowInEffect, hc, Bool.or_true]
  have hafter : (s.commandWritten false).stowInEffect = false := by rw [State.stowInEffect_commandWritten, ha]; rfl
  rw [State.setStowCommand_eq, hbefore, State.rederiveStow_of_released _ hafter]
  exact (s.commandWritten false).stowReleased_releaseStow.congr rfl rfl

end

/-- Settles O49: a source of stow engages it, releases it or leaves it. -/
theorem stowCommands : Obligations.StowCommands := by
  unfold Obligations.StowCommands
  refine fun s => ⟨fun hr => ?_, fun hr => ?_⟩
  · refine exec_acted (w := ⟨.dispatch, _, _⟩) rfl hr rfl (f := fun u => u.setStowCommand true) (fun _ => rfl)
      (fun u => u.setStowCommand_port true _) fun x => ?_
    obtain ⟨u, hu⟩ : ∃ u, u = s.setTxn .dispatch x := ⟨_, rfl⟩
    obtain ⟨hasserted, hcommand, heffect⟩ := u.sources_setStowCommand true
    obtain ⟨hstill, hrest⟩ := u.setStowCommand_rest true
    have hrest := State.rest_eq_of_offRecords hrest
    have hsame (h : u.stowInEffect = true) := State.setStowCommand_of_same (s := u) true (h.trans (Bool.or_true _).symm)
    have hengaged (h : u.stowInEffect = false) := State.stowEngaged_setStowCommand h
    rw [← hu]
    generalize u.setStowCommand true = t at *
    subst hu
    refine ⟨hcommand, heffect.trans (Bool.or_true _), hasserted, ?_⟩
    split
    next h => rw [hsame h]; rfl
    next h => exact ⟨hengaged (Bool.eq_false_iff.2 h), hrest, hstill⟩
  · refine exec_acted (w := ⟨.dispatch, _, _⟩) rfl hr rfl (f := fun u => u.setStowCommand false) (fun _ => rfl)
      (fun u => u.setStowCommand_port false _) fun x => ?_
    obtain ⟨u, hu⟩ : ∃ u, u = s.setTxn .dispatch x := ⟨_, rfl⟩
    obtain ⟨hasserted, hcommand, heffect⟩ := u.sources_setStowCommand false
    obtain ⟨hstill, hrest⟩ := u.setStowCommand_rest false
    have hrest := State.rest_eq_of_offRecords hrest
    have hsame (h : u.pau.stowCommand = false ∨ u.pau.asserted = true) := State.setStowCommand_of_same (s := u) false (by
      rw [State.stowInEffect]
      rcases h with h | h
      · rw [h]
      · rw [h, Bool.true_or, Bool.true_or])
    have hreleased (hc : u.pau.stowCommand = true) (ha : u.pau.asserted = false) := State.stowReleased_setStowCommand hc ha
    rw [← hu]
    generalize u.setStowCommand false = t at *
    subst hu
    refine ⟨hcommand, heffect.trans (Bool.or_false _), hasserted, ?_⟩
    split
    next h => rw [hsame h]; rfl
    next h =>
      obtain ⟨hc, ha⟩ := not_or.1 h
      exact ⟨hreleased (Bool.eq_true_of_not_eq_false hc) (Bool.eq_false_iff.2 ha), hrest, hstill⟩

/-! ### The stow line (R156) -/

/-- The state with a qualified change of the line written, before stow engages or is released by it. -/
def State.lineWritten (s : State) : State := { s with pau := { s.pau with asserted := !s.pau.asserted, lineCand := none } }

section
variable {s u : State}

theorem State.qualifyLine_eq (u : State) : u.qualifyLine = u.lineWritten.rederiveStow u.stowInEffect := rfl

theorem State.qualifyLine_rest (u : State) : (∀ i, (u.qualifyLine.hel i).still = (u.hel i).still)
    ∧ u.qualifyLine.offRecords = u.lineWritten.offRecords := by
  obtain ⟨hstill, hrest⟩ := u.lineWritten.rederiveStow_rest u.stowInEffect
  exact ⟨hstill, hrest⟩

theorem State.stowInEffect_of_command (h : u.pau.stowCommand = true) : u.stowInEffect = true := by
  rw [State.stowInEffect, h, Bool.or_true]

theorem State.stowInEffect_of_line (h : u.pau.stowCommand = false) : u.stowInEffect = u.pau.asserted := by
  rw [State.stowInEffect, h, Bool.or_false]

theorem State.qualifyLine_of_command (h : u.pau.stowCommand = true) : u.qualifyLine = u.lineWritten := by
  have hafter : u.lineWritten.stowInEffect = true := State.stowInEffect_of_command h
  rw [State.qualifyLine_eq, State.rederiveStow_of_same _ _ ((State.stowInEffect_of_command h).trans hafter.symm)]

theorem State.qualifyLine_of_engaged (h : u.pau.stowCommand = false) (ha : u.pau.asserted = false) :
    u.qualifyLine = u.lineWritten.engageStow := by
  have hafter : u.lineWritten.stowInEffect = true :=
    (State.stowInEffect_of_line (u := u.lineWritten) h).trans (by rw [State.lineWritten, ha]; rfl)
  rw [State.qualifyLine_eq, (State.stowInEffect_of_line h).trans ha, State.rederiveStow_of_engaged _ hafter]

theorem State.qualifyLine_of_released (h : u.pau.stowCommand = false) (ha : u.pau.asserted = true) :
    u.qualifyLine = u.lineWritten.releaseStow := by
  have hafter : u.lineWritten.stowInEffect = false :=
    (State.stowInEffect_of_line (u := u.lineWritten) h).trans (by rw [State.lineWritten, ha]; rfl)
  rw [State.qualifyLine_eq, (State.stowInEffect_of_line h).trans ha, State.rederiveStow_of_released _ hafter]

/-- `w` is `s` some time later, as the stow line sees it. -/
structure Waited (s w : State) : Prop where
  hels : w.hels = s.hels
  points : w.points = s.points
  zones : w.zones = s.zones
  segs : ∀ k < 8, (w.seg k).state = (s.seg k).state ∧ (w.seg k).owed = (s.seg k).owed
  devents : w.devents = s.devents
  asserted : w.pau.asserted = s.pau.asserted
  stowCommand : w.pau.stowCommand = s.pau.stowCommand
  pins : w.pins = s.pins

theorem Waited.refl (s : State) : Waited s s := ⟨rfl, rfl, rfl, fun _ _ => ⟨rfl, rfl⟩, rfl, rfl, rfl, rfl⟩

theorem Waited.elapse (s : State) (d : Nat) : Waited s (s.elapse d) where
  hels := rfl
  points := rfl
  zones := rfl
  segs k hk := by
    rw [State.seg_elapse _ d hk]
    exact ⟨rfl, rfl⟩
  devents := rfl
  asserted := rfl
  stowCommand := rfl
  pins := rfl

/-- The level sampled, before it is judged. -/
def State.lineSampled (s : State) (level : Bool) : State :=
  { s with pins := { s.pins with stowreqN := level }, pau := { s.pau with stowSampled := level } }

theorem State.sampleLine_eq (s : State) (level : Bool) : s.sampleLine level =
    if level = !s.pau.asserted then (s.lineSampled level).setLineCand none
    else match s.pau.lineCand with
      | none => (s.lineSampled level).setLineCand (some s.newLineCand)
      | some cd => if cd.ripe s.ms then (s.lineSampled level).qualifyLine else s.lineSampled level := rfl

/-- A differing sample whose candidate's time is up qualifies at once. -/
theorem State.sampleLine_of_ripe {cd : Cand} (hc : u.pau.lineCand = some cd)
    (hlate : since cd.deadline cd.start ≤ since u.ms cd.start) :
    u.sampleLine u.pau.asserted = (u.lineSampled u.pau.asserted).qualifyLine := by
  have hdiffers : u.pau.asserted ≠ !u.pau.asserted := by cases u.pau.asserted <;> decide
  rw [State.sampleLine_eq, if_neg hdiffers, hc]
  exact if_pos ((Cand.ripe_iff cd _).2 hlate)

/-- A sample that qualifies nothing. -/
theorem State.sampleLine_of_waiting (s : State) {level : Bool} (h : level = (!s.pau.asserted) ∨ s.pau.lineCand = none
      ∨ ∃ cd, s.pau.lineCand = some cd ∧ since s.ms cd.start < since cd.deadline cd.start) :
    s.sampleLine level = (s.lineSampled level).setLineCand
      (if level = (!s.pau.asserted) then none
        else match s.pau.lineCand with
          | some cd => some cd
          | none => some ⟨s.ms, s.ms + 20⟩) := by
  rw [State.sampleLine_eq]
  split
  next => rfl
  next hdiffers =>
    rcases h.resolve_left hdiffers with hc | ⟨cd, hc, hearly⟩
    · rw [hc]
      rfl
    · have hunripe : ¬ cd.ripe s.ms = true := fun hripe => absurd ((Cand.ripe_iff cd _).1 hripe) (by omega)
      rw [hc]
      refine (if_neg hunripe).trans ?_
      dsimp only
      rw [← hc]
      rfl

/-- A qualified change does what the model's `LineQualified` says. -/
theorem lineQualified_qualifyLine {w : State} (h : Waited s w) : LineQualified s (w.lineSampled s.pau.asserted).qualifyLine := by
  obtain ⟨v, hv⟩ : ∃ v, v = w.lineSampled s.pau.asserted := ⟨_, rfl⟩
  have hcommand : v.pau.stowCommand = s.pau.stowCommand := by rw [hv]; exact h.stowCommand
  have hasserted : v.pau.asserted = s.pau.asserted := by rw [hv]; exact h.asserted
  have hhels : v.lineWritten.hels = s.hels := by rw [hv]; exact h.hels
  have hpoints : v.lineWritten.points = s.points := by rw [hv]; exact h.points
  have hzones : v.lineWritten.zones = s.zones := by rw [hv]; exact h.zones
  have hsegs k (hk : k < 8) : (v.lineWritten.seg k).state = (s.seg k).state ∧ (v.lineWritten.seg k).owed = (s.seg k).owed := by
    rw [hv]; exact h.segs k hk
  obtain ⟨hstill, hrest⟩ := v.qualifyLine_rest
  have hpau := State.pau_of_offRecords hrest
  have hpins : v.qualifyLine.pins = { s.pins with stowreqN := s.pau.asserted } := by
    rw [State.pins_of_offRecords hrest, hv, ← h.pins]
    rfl
  rw [← hv]
  refine ⟨?_, ?_, ?_, ?_, hpins, fun hc => ?_, fun hc ha => ?_, fun hc ha => ?_, fun i => ?_⟩
  · rw [hpau, ← hasserted]; rfl
  · rw [hpau]; rfl
  · rw [hpau, ← hcommand]; rfl
  · rw [hpau, hv]; rfl
  · rw [State.qualifyLine_of_command (hcommand.trans hc)]
    exact ⟨hhels, hzones, by rw [hv]; exact h.devents⟩
  · rw [State.qualifyLine_of_engaged (hcommand.trans hc) (hasserted.trans ha)]
    exact v.lineWritten.stowEngaged_engageStow.congr hhels hpoints hzones hsegs
  · rw [State.qualifyLine_of_released (hcommand.trans hc) (hasserted.trans ha)]
    exact v.lineWritten.stowReleased_releaseStow.congr hhels hzones
  · rw [hstill i, State.hel_congr (s := s) (t := v) hhels i]

end

/-- Settles O50: a sample of the line waits, begins or drops a candidate, or qualifies the change. -/
theorem stowLine : Obligations.StowLine := by
  unfold Obligations.StowLine
  refine fun s => ⟨fun level h => ⟨_, rfl, ?_⟩, fun cd hc => ?_, fun cd hc hlate => ⟨_, rfl, ?_⟩⟩
  · rw [s.sampleLine_of_waiting h]
    exact ⟨rfl, rfl, rfl⟩
  · obtain ⟨w, hw⟩ : ∃ w, w = s.elapse (cd.left s.ms) := ⟨_, rfl⟩
    have hexec : exec .stowLineQualified s = .next (w.sampleLine s.pau.asserted) := by
      rw [show exec .stowLineQualified s = execStowLineQualified s from rfl, execStowLineQualified, hc, hw]
      rfl
    have hcand : w.pau.lineCand = some cd := by rw [hw]; exact hc
    have hasserted : w.pau.asserted = s.pau.asserted := by rw [hw]; rfl
    have hms : w.ms = s.ms + BitVec.ofNat 32 (since cd.deadline cd.start - since s.ms cd.start) := by rw [hw]; rfl
    have hripe := cd.ripe_at_deadline s.ms
    rw [← hms] at hripe
    have hsampled := State.sampleLine_of_ripe hcand hripe
    rw [hasserted] at hsampled
    refine ⟨_, hexec, ?_⟩
    rw [hsampled]
    refine ⟨lineQualified_qualifyLine (hw ▸ Waited.elapse s _), ?_⟩
    exact (State.rest_of_offRecords (State.qualifyLine_rest _).2).1.trans hms
  · rw [State.sampleLine_of_ripe hc hlate]
    exact ⟨lineQualified_qualifyLine (Waited.refl s), State.rest_eq_of_offRecords (State.qualifyLine_rest _).2⟩

end Sys2Proof.Machine
end

section
/-! PROOFS. A step of the counter with nothing commanded: what is due, as membership in the queue. -/

-- One proof after another: begun all at once, the proofs of the whole text outgrow the check's memory.
set_option Elab.async false

namespace Sys2Proof.Machine

/-! ### What is due -/

section
variable (s : State) (c : Instr)

@[simp] theorem State.mem_dueStowLine : c ∈ s.dueStowLine ↔
    (c = .stowLineChange s.pins.stowreqN ∧ (s.pau.lineCand = none ↔ s.pins.stowreqN = s.pau.asserted))
      ∨ c = .stowLineQualified ∧ s.pins.stowreqN = s.pau.asserted ∧ ∃ cd, s.pau.lineCand = some cd ∧ cd.ripe s.ms = true := by
  have hlevel : (s.pins.stowreqN = !s.pau.asserted) ↔ ¬ s.pins.stowreqN = s.pau.asserted := Bool.eq_not
  unfold State.dueStowLine
  cases s.pau.lineCand with
  | none => simp [hlevel, and_comm]
  | some cd => by_cases h : s.pins.stowreqN = s.pau.asserted <;> simp [hlevel, h, and_comm]

/-- The row that qualifies a change of a channel. -/
def Channel.changeRow (x : Channel) (k : Fin 8) : Instr := if x.qualified then .shadowOnset k else .shadowEnd k

@[simp] theorem State.mem_dueSensor (k : Fin 8) : c ∈ s.dueSensor k ↔
    (c = .shadowSensorChange k (s.pins.shd.getLsbD k)
        ∧ ((s.channel k).cand = none ↔ s.pins.shd.getLsbD k ≠ (s.channel k).qualified))
      ∨ c = (s.channel k).changeRow k ∧ s.pins.shd.getLsbD k ≠ (s.channel k).qualified
        ∧ ∃ cd, (s.channel k).cand = some cd ∧ cd.ripe s.ms = true := by
  unfold State.dueSensor
  dsimp only
  generalize s.pins.shd.getLsbD k = level
  cases (s.channel k).cand with
  | none => simp [and_comm]
  | some cd => by_cases h : level = (s.channel k).qualified <;> simp [h, Channel.changeRow, and_comm]

/-- A channel is queued as STUCK where it is overdue (and, beyond the statement, where an onset due here began too long ago). -/
theorem State.dueStuck_eq (k : Fin 8) :
    ∃ b : Bool, (s.overdue k = true → b = true) ∧ s.dueStuck k = if b then [.sensorStuck k] else [] :=
  ⟨_, fun h => by rw [h, Bool.true_or], rfl⟩

@[simp] theorem State.mem_dueStuck (k : Fin 8) : c ∈ s.dueStuck k ↔ c = .sensorStuck k ∧ s.dueStuck k ≠ [] := by
  obtain ⟨b, -, hdue⟩ := s.dueStuck_eq k
  cases b <;> simp [hdue]

theorem State.sensorStuck_mem_dueStuck {k : Fin 8} (h : s.overdue k = true) : .sensorStuck k ∈ s.dueStuck k := by
  obtain ⟨b, hb, hdue⟩ := s.dueStuck_eq k
  rw [hdue, hb h]
  exact List.mem_singleton_self _

@[simp] theorem State.mem_dueSegment (k : Fin 8) : c ∈ s.dueSegment k ↔
    (c = .replyTimeout k ∧ (s.seg k).frame.any Frame.runOut = true)
      ∨ (c = .quietExpiry k ∧ (s.seg k).state = .locked ∧ (s.seg k).quietLeft = some 0)
      ∨ c = .segmentLocked k ∧ ∃ us, (s.seg k).activeUs = some us ∧ ((s.seg k).rate.babbleUs : Int) < us := by
  unfold State.dueSegment
  dsimp only
  cases (s.seg k).activeUs with
  | none => simp [and_comm]
  | some us => simp [and_comm]

@[simp] theorem State.mem_dueEvents : c ∈ s.dueEvents ↔ c ∈ s.dueStowLine ∨ (∃ k, c ∈ s.dueSensor k) ∨ (∃ k, c ∈ s.dueStuck k)
    ∨ (c = .deadlineExpiry ∧ s.pau.deadlineLeft = some 0) ∨ (c = .supervisionExpired ∧ s.pau.supLeft = some 0)
    ∨ (∃ k : Fin 8, c = .releaseTimerExpiry k ∧ s.timer k = some 0)
    ∨ (c = .epochExpiry ∧ s.epoch.running = true ∧ s.epoch.countdown = 0) ∨ ∃ k, c ∈ s.dueSegment k := by
  simp [State.dueEvents, and_comm]

@[simp] theorem Channel.eq_changeRow_iff (x : Channel) (k : Fin 8) :
    c = x.changeRow k ↔ (x.qualified = true ∧ c = .shadowOnset k) ∨ x.qualified = false ∧ c = .shadowEnd k := by
  unfold Channel.changeRow
  cases x.qualified <;> simp

theorem State.stowLineChange_due : .stowLineChange s.pins.stowreqN ∈ s.dueEvents ↔
    (s.pau.lineCand = none ↔ s.pins.stowreqN = s.pau.asserted) := by simp

theorem State.stowLineQualified_due : .stowLineQualified ∈ s.dueEvents ↔
    s.pins.stowreqN = s.pau.asserted ∧ ∃ cd, s.pau.lineCand = some cd ∧ cd.ripe s.ms = true := by simp

theorem State.deadlineExpiry_due : .deadlineExpiry ∈ s.dueEvents ↔ s.pau.deadlineLeft = some 0 := by simp

theorem State.supervisionExpired_due : .supervisionExpired ∈ s.dueEvents ↔ s.pau.supLeft = some 0 := by simp

theorem State.epochExpiry_due : .epochExpiry ∈ s.dueEvents ↔ s.epoch.running = true ∧ s.epoch.countdown = 0 := by simp

variable (k : Fin 8)

theorem State.shadowSensorChange_due {level : Bool} (h : level = s.pins.shd.getLsbD k) :
    .shadowSensorChange k level ∈ s.dueEvents ↔ ((s.channel k).cand = none ↔ level ≠ (s.channel k).qualified) := by
  subst h
  simp

theorem State.changeRow_due : (s.channel k).changeRow k ∈ s.dueEvents ↔
    s.pins.shd.getLsbD k ≠ (s.channel k).qualified ∧ ∃ cd, (s.channel k).cand = some cd ∧ cd.ripe s.ms = true := by
  unfold Channel.changeRow
  cases h : (s.channel k).qualified <;> simp [h]

theorem State.releaseTimerExpiry_due : .releaseTimerExpiry k ∈ s.dueEvents ↔ s.timer k = some 0 := by simp

theorem State.replyTimeout_due : .replyTimeout k ∈ s.dueEvents ↔ (s.seg k).frame.any Frame.runOut = true := by simp

theorem State.quietExpiry_due : .quietExpiry k ∈ s.dueEvents ↔ (s.seg k).state = .locked ∧ (s.seg k).quietLeft = some 0 := by simp

theorem State.segmentLocked_due : .segmentLocked k ∈ s.dueEvents ↔
    ∃ us, (s.seg k).activeUs = some us ∧ ((s.seg k).rate.babbleUs : Int) < us := by simp

theorem State.sensorStuck_due (h : s.overdue k = true) : .sensorStuck k ∈ s.dueEvents :=
  (s.mem_dueEvents _).2 (.inr (.inr (.inl ⟨k, s.sensorStuck_mem_dueStuck h⟩)))

end

/-! ### The step -/

/-- The millisecond of a tick and its sample of STOWREQ_N, nothing queued yet. -/
def State.ticked (s : State) : State := { s.elapse 1 with pau := { (s.elapse 1).pau with stowSampled := (s.elapse 1).pins.stowreqN } }

def State.withQueue (s : State) (q : List Instr) : State := { s with pending := q }

theorem State.tick_eq_withQueue (s : State) : s.tick = s.ticked.withQueue s.ticked.dueEvents := rfl

/-- What is due does not depend on what is queued. -/
theorem State.dueEvents_withQueue (u : State) (q : List Instr) : (u.withQueue q).dueEvents = u.dueEvents := rfl

/-- What a tick queues is what is due after it. -/
theorem State.pending_tick (s : State) : s.tick.pending = s.tick.dueEvents := by
  rw [State.tick_eq_withQueue, State.dueEvents_withQueue, State.withQueue]

theorem Frame.runOut_iff (f : Frame) : f.runOut = true ↔ f.phase = .awaiting ∧ f.receiving = false ∧ f.remaining = 0 := by
  unfold Frame.runOut
  simp [and_assoc]

/-- A frame after one millisecond: a wait that did not begin in it is charged for it. -/
theorem Frame.elapse_one (f : Frame) : f.elapse 1 = if f.phase = .awaiting ∧ f.receiving = false then
    { f with remaining := if f.fresh = true then f.remaining else f.remaining - 1000, fresh := false } else f := by
  unfold Frame.elapse Frame.charged
  cases f.fresh <;> rfl

theorem Rate.babbleUs_eq (r : Rate) : (r.babbleUs : Int) = match r with | .fast => 400 | .medium => 1600 | .slow => 6400 := by
  cases r <;> rfl

section
variable {t : State} {k : Fin 8} (hdue : t.pending = t.dueEvents)
include hdue

/-- What is queued for one segment, by its state after the millisecond. -/
theorem State.segment_pending (k : Fin 8) : (t.timer k = some 0 ↔ .releaseTimerExpiry k ∈ t.pending)
    ∧ ((t.seg k).state = .locked ∧ (t.seg k).quietLeft = some 0 ↔ .quietExpiry k ∈ t.pending)
    ∧ ((∃ f, (t.seg k).frame = some f ∧ f.phase = .awaiting ∧ f.receiving = false ∧ f.remaining = 0)
        ↔ .replyTimeout k ∈ t.pending)
    ∧ ((∃ us : Int, (t.seg k).activeUs = some us
        ∧ (match (t.seg k).rate with | .fast => 400 | .medium => 1600 | .slow => 6400) < us)
        ↔ .segmentLocked k ∈ t.pending) := by
  rw [hdue]
  refine ⟨(t.releaseTimerExpiry_due k).symm, (t.quietExpiry_due k).symm, ?_, ?_⟩
  · rw [State.replyTimeout_due, Option.any_eq_true]
    exact exists_congr fun f => and_congr_right fun _ => (Frame.runOut_iff f).symm
  · rw [State.segmentLocked_due]
    exact exists_congr fun us => and_congr_right fun _ => by rw [Rate.babbleUs_eq]

/-- What is queued for one sensor, by its channel after the millisecond. -/
theorem State.sensor_pending (k : Fin 8) {level : Bool} (hlevel : level = t.pins.shd.getLsbD k) :
    (level = ((t.channel k).state == .sunlit) →
      ((t.channel k).cand.isSome ↔ .shadowSensorChange k level ∈ t.pending))
    ∧ (level ≠ ((t.channel k).state == .sunlit) →
      ((t.channel k).cand = none ↔ .shadowSensorChange k level ∈ t.pending)
      ∧ (∀ cd, (t.channel k).cand = some cd →
          (since cd.deadline cd.start ≤ since t.ms cd.start ↔
            (if (t.channel k).state = .sunlit then Instr.shadowOnset k else .shadowEnd k) ∈ t.pending))) := by
  rw [hdue]
  have hsample := t.shadowSensorChange_due k hlevel
  have hrow : (t.channel k).changeRow k = if (t.channel k).state = .sunlit then Instr.shadowOnset k else .shadowEnd k := by
    unfold Channel.changeRow Channel.qualified
    simp
  refine ⟨fun h => ?_, fun h => ⟨?_, fun cd hc => ?_⟩⟩
  · rw [hsample, Option.isSome_iff_ne_none]
    exact ⟨fun hne => ⟨fun hn => absurd hn hne, fun hn => absurd h hn⟩, fun hiff hn => hiff.1 hn h⟩
  · rw [hsample]
    exact ⟨fun hn => ⟨fun _ => h, fun _ => hn⟩, fun hiff => hiff.2 h⟩
  · rw [← hrow, State.changeRow_due, ← hlevel, ← Cand.ripe_iff, hc]
    exact ⟨fun hripe => ⟨h, cd, rfl, hripe⟩, fun ⟨_, cd', hcd, hripe⟩ => Option.some.inj hcd ▸ hripe⟩

theorem State.stowLine_pending : (t.pins.stowreqN = (!t.pau.asserted) →
      (t.pau.lineCand.isSome ↔ .stowLineChange t.pins.stowreqN ∈ t.pending))
    ∧ (t.pins.stowreqN = t.pau.asserted →
      (t.pau.lineCand = none ↔ .stowLineChange t.pins.stowreqN ∈ t.pending)
      ∧ (∀ cd, t.pau.lineCand = some cd →
          (since cd.deadline cd.start ≤ since t.ms cd.start ↔ .stowLineQualified ∈ t.pending))) := by
  rw [hdue, State.stowLineChange_due, State.stowLineQualified_due]
  refine ⟨fun h => ?_, fun h => ⟨⟨fun hn => ⟨fun _ => h, fun _ => hn⟩, fun hiff => hiff.2 h⟩, fun cd hc => ?_⟩⟩
  · have hne : t.pins.stowreqN ≠ t.pau.asserted := Bool.eq_not.1 h
    rw [Option.isSome_iff_ne_none]
    exact ⟨fun hsome => ⟨fun hn => absurd hn hsome, fun he => absurd he hne⟩, fun hiff hn => hne (hiff.1 hn)⟩
  · rw [← Cand.ripe_iff, hc]
    exact ⟨fun hripe => ⟨h, cd, rfl, hripe⟩, fun ⟨_, cd', hcd, hripe⟩ => Option.some.inj hcd ▸ hripe⟩

theorem State.sensorStuck_pending (k : Fin 8) (hs : (t.channel k).state = .shaded) (hlimit : t.scu.shadeMax ≠ 0)
    (hlong : t.scu.shadeMax * 1000 < since t.ms (t.channel k).shadeStart) : .sensorStuck k ∈ t.pending := by
  rw [hdue]
  refine t.sensorStuck_due k ?_
  simp [State.overdue, State.tooLong, State.shadeLimit, hs, hlimit, hlong]

end

/-- A segment after a tick. -/
theorem State.seg_after_tick (s : State) {k : Nat} (hk : k < 8) : (s.tick.seg k).quietLeft = (s.seg k).quietLeft.map (· - 1)
    ∧ (s.tick.seg k).activeUs = (s.seg k).activeUs.map (· + 1000)
    ∧ (∀ f, (s.seg k).frame = some f → (s.tick.seg k).frame =
        if f.phase = .awaiting ∧ f.receiving = false then
          some { f with remaining := if f.fresh = true then f.remaining else f.remaining - 1000, fresh := false }
        else some f)
    ∧ ((s.seg k).frame = none → (s.tick.seg k).frame = none)
    ∧ { s.tick.seg k with quietLeft := none, activeUs := none, frame := none }
        = { s.seg k with quietLeft := none, activeUs := none, frame := none } := by
  rw [s.seg_tick hk]
  refine ⟨rfl, rfl, fun f hf => ?_, fun hf => ?_, rfl⟩
  · rw [Seg.elapse_frame, hf, Option.map_some, Frame.elapse_one]
    split <;> rfl
  · rw [Seg.elapse_frame, hf, Option.map_none]

/-- Settles O2: a millisecond passes, and what is due after it is queued. -/
theorem idleTick : Obligations.IdleTick := by
  unfold Obligations.IdleTick
  intro s hempty
  have hstep : step s = .next s.tick := by rw [step, hempty]
  have hdue := s.pending_tick
  have hwire : ∀ c ∈ s.tick.pending, wire c = none := by rw [hdue]; exact State.wire_dueEvents _
  have hsegs k (hk : k < 8) := s.seg_after_tick hk
  have htimers k (hk : k < 8) := s.timer_tick hk
  have hpau : s.tick.pau = { s.pau with
      deadlineLeft := s.pau.deadlineLeft.map (· - 1)
      supLeft := s.pau.supLeft.map (· - 1)
      stowSampled := s.pins.stowreqN } := rfl
  have hepoch : s.tick.epoch = { s.epoch with
      countdown := if s.epoch.running then s.epoch.countdown - 1 else s.epoch.countdown } := by
    rw [show s.tick.epoch = s.epoch.elapse 1 from rfl, Epoch.elapse]
    split <;> rfl
  have hms : s.tick.ms = s.ms + 1 := rfl
  have hrsg : { s.tick.rsg with timers := [] } = { s.rsg with timers := [] } := rfl
  have hrest : { s.tick with ms := s.ms, segs := s.segs, epoch := s.epoch, pau := s.pau, rsg := s.rsg, pending := [] } = s := by
    rw [← hempty]
    rfl
  refine ⟨s.tick, hstep, ?_⟩
  generalize s.tick = t at *
  refine ⟨hms, htimers, hsegs, hepoch, hpau, hrsg, hwire, ?_, ?_, ?_, fun k => ?_, (State.stowLine_pending hdue).1,
    (State.stowLine_pending hdue).2, hrest⟩
  · rw [hdue, State.epochExpiry_due]
  · rw [hdue, State.deadlineExpiry_due]
  · rw [hdue, State.supervisionExpired_due]
  · obtain ⟨htimer, hquiet, hreply, hbabble⟩ := State.segment_pending hdue k
    exact ⟨htimer, hquiet, hreply, State.sensorStuck_pending hdue k, hbabble, fun level hlevel => State.sensor_pending hdue k hlevel⟩

end Sys2Proof.Machine
end

section
/-! PROOFS. The bytes of a port command read back, and the command as a delivery that reads only the state at its edge. -/

-- One proof after another: begun all at once, the proofs of the whole text outgrow the check's memory.
set_option Elab.async false

namespace Sys2Proof.Machine

/-! ### Operand bytes -/

section
variable {β : Type}

theorem u16_bytes16 (k : BitVec 16 → List Byte → Option β) (w : BitVec 16) (r : List Byte) :
    u16 k (bytes16 w ++ r) = k w r := by
  have h : w.extractLsb' 8 8 ++ w.extractLsb' 0 8 = w := by
    rw [BitVec.extractLsb'_append_extractLsb'_eq_extractLsb']
    · exact BitVec.extractLsb'_eq_self
    all_goals rfl
  exact congrArg (k · r) h

theorem u24_bytes24 (k : BitVec 24 → List Byte → Option β) (w : BitVec 24) (r : List Byte) :
    u24 k (bytes24 w ++ r) = k w r := by
  have h : w.extractLsb' 16 8 ++ w.extractLsb' 8 8 ++ w.extractLsb' 0 8 = w := by
    rw [BitVec.extractLsb'_append_extractLsb'_eq_extractLsb', BitVec.extractLsb'_append_extractLsb'_eq_extractLsb']
    · exact BitVec.extractLsb'_eq_self
    all_goals rfl
  exact congrArg (k · r) h

theorem u32_bytes32 (k : BitVec 32 → List Byte → Option β) (w : BitVec 32) (r : List Byte) :
    u32 k (bytes32 w ++ r) = k w r := by
  have h : w.extractLsb' 24 8 ++ w.extractLsb' 16 8 ++ w.extractLsb' 8 8 ++ w.extractLsb' 0 8 = w := by
    rw [BitVec.extractLsb'_append_extractLsb'_eq_extractLsb', BitVec.extractLsb'_append_extractLsb'_eq_extractLsb', BitVec.extractLsb'_append_extractLsb'_eq_extractLsb']
    · exact BitVec.extractLsb'_eq_self
    all_goals rfl
  exact congrArg (k · r) h

theorem u48_bytes48 (k : BitVec 48 → List Byte → Option β) (w : BitVec 48) (r : List Byte) :
    u48 k (bytes48 w ++ r) = k w r := by
  have h : w.extractLsb' 40 8 ++ w.extractLsb' 32 8 ++ w.extractLsb' 24 8 ++ w.extractLsb' 16 8 ++ w.extractLsb' 8 8 ++ w.extractLsb' 0 8 = w := by
    rw [BitVec.extractLsb'_append_extractLsb'_eq_extractLsb', BitVec.extractLsb'_append_extractLsb'_eq_extractLsb', BitVec.extractLsb'_append_extractLsb'_eq_extractLsb', BitVec.extractLsb'_append_extractLsb'_eq_extractLsb', BitVec.extractLsb'_append_extractLsb'_eq_extractLsb']
    · exact BitVec.extractLsb'_eq_self
    all_goals rfl
  exact congrArg (k · r) h

theorem u64_bytes64 (k : BitVec 64 → List Byte → Option β) (w : BitVec 64) (r : List Byte) :
    u64 k (bytes64 w ++ r) = k w r := by
  have h : w.extractLsb' 56 8 ++ w.extractLsb' 48 8 ++ w.extractLsb' 40 8 ++ w.extractLsb' 32 8 ++ w.extractLsb' 24 8 ++ w.extractLsb' 16 8 ++ w.extractLsb' 8 8 ++ w.extractLsb' 0 8 = w := by
    rw [BitVec.extractLsb'_append_extractLsb'_eq_extractLsb', BitVec.extractLsb'_append_extractLsb'_eq_extractLsb', BitVec.extractLsb'_append_extractLsb'_eq_extractLsb', BitVec.extractLsb'_append_extractLsb'_eq_extractLsb', BitVec.extractLsb'_append_extractLsb'_eq_extractLsb', BitVec.extractLsb'_append_extractLsb'_eq_extractLsb', BitVec.extractLsb'_append_extractLsb'_eq_extractLsb']
    · exact BitVec.extractLsb'_eq_self
    all_goals rfl
  exact congrArg (k · r) h

end

/-! ### A port command is a delivery -/

theorem State.captureObject_setTxn (s : State) (p : Port) (x : Txn) (k : Nat) : (s.setTxn p x).captureObject k = s.captureObject k := by
  cases p <;> rfl

/-- What a port command does reads the state at its delivery edge alone, and never the record of its own port (R175). -/
theorem exec_eq_deliverWith {c : Instr} {w : WireCmd} (hw : wire c = some w) (hc : c.wellFormed = true) :
    ∃ (act : State → State × Code) (first : State → State → Option (List Byte × Option Cursor)),
      (∀ s, exec c s = .next (deliverWith c act (first s) s)) ∧ ∀ s p x, first (s.setTxn p x) = first s := by
  cases c with
  | unknownCommand p b =>
    have hnone : operandLength p b = none := beq_iff_eq.1 hc
    exact ⟨_, fun _ => _, fun s => if_pos hnone, fun _ _ _ => rfl⟩
  | readCapture k =>
    exact ⟨_, fun s _ => some (s.captureObject k.toNat, none), fun _ => rfl, fun s p x => by
      dsimp only
      rw [State.captureObject_setTxn]⟩
  | transactionDiscard | readObjectFix | pinReset | epochExpiry | sweepVisit | sweepComplete | solve | solveBegun
  | releaseTimerExpiry | nextItemTaken | frameSent | receptionComplete | receptionBroken | replyTimeout | segmentLocked
  | quietExpiry | shadowSensorChange | shadowOnset | shadowEnd | sensorStuck | stowLineChange | stowLineQualified
  | deadlineExpiry | supervisionExpired | receptionBegins | lineFallsIdle | rxLineActive | transactionBegin
  | transactionEnd => cases hw
  | _ => exact ⟨_, fun _ => _, fun _ => rfl, fun _ _ _ => rfl⟩

/-! ### The bytes read back -/

section
variable {β : Type}

theorem u16_bytes16_end (k : BitVec 16 → List Byte → Option β) (w : BitVec 16) : u16 k (bytes16 w) = k w [] :=
  u16_bytes16 k w []

theorem u24_bytes24_end (k : BitVec 24 → List Byte → Option β) (w : BitVec 24) : u24 k (bytes24 w) = k w [] :=
  u24_bytes24 k w []

theorem u48_bytes48_end (k : BitVec 48 → List Byte → Option β) (w : BitVec 48) : u48 k (bytes48 w) = k w [] :=
  u48_bytes48 k w []

theorem u64_bytes64_end (k : BitVec 64 → List Byte → Option β) (w : BitVec 64) : u64 k (bytes64 w) = k w [] :=
  u64_bytes64 k w []

end

/-- A code that names no command of its port is read as UNKNOWN_COMMAND. -/
theorem decodeWire_unknown {p : Port} {b : Byte} (h : operandLength p b = none) : decodeWire p [b] = some (.unknownCommand p b) := by
  cases p with
  | dispatch =>
    have hlength : dispatchLength b.toNat = none := h
    rw [decodeWire, decodeDispatch]
    split
    case h_32 => rfl
    all_goals
      rename_i hcode
      rw [hcode] at hlength
      cases hlength
  | protection =>
    have hlength : protectionLength b.toNat = none := h
    rw [decodeWire, decodeProtection]
    split
    case h_13 => rfl
    all_goals
      rename_i hcode
      rw [hcode] at hlength
      cases hlength

/-- An event set of the protection port is its byte. -/
theorem setWidth_extractLsb'_of_lt {m : BitVec 24} (h : m.toNat < 256) : (m.extractLsb' 0 8).setWidth 24 = m := by
  apply BitVec.eq_of_toNat_eq
  rw [BitVec.toNat_setWidth, BitVec.extractLsb'_toNat, Nat.shiftRight_zero]
  omega

/-- Every well-formed port command is read back from its bytes. -/
theorem decodeWire_wire {c : Instr} {w : WireCmd} (hw : wire c = some w) (hc : c.wellFormed = true) :
    decodeWire w.port (w.code :: w.operands) = some c := by
  cases c with
  | unknownCommand p b =>
    cases hw
    exact decodeWire_unknown (beq_iff_eq.1 hc)
  | setMask p m | ackEvents p m =>
    cases p with
    | dispatch =>
      cases hw
      simp [decodeWire, decodeDispatch, u24_bytes24_end, fin]
    | protection =>
      cases hw
      have hm := setWidth_extractLsb'_of_lt (of_decide_eq_true hc)
      simp [decodeWire, decodeProtection, u8, fin, hm]
  | readZone p z | readStatus p =>
    cases hw
    cases p <;> rfl
  | transactionDiscard | readObjectFix | pinReset | epochExpiry | sweepVisit | sweepComplete | solve | solveBegun
  | releaseTimerExpiry | nextItemTaken | frameSent | receptionComplete | receptionBroken | replyTimeout | segmentLocked
  | quietExpiry | shadowSensorChange | shadowOnset | shadowEnd | sensorStuck | stowLineChange | stowLineQualified
  | deadlineExpiry | supervisionExpired | receptionBegins | lineFallsIdle | rxLineActive | transactionBegin
  | transactionEnd => cases hw
  | _ =>
    cases hw
    simp [decodeWire, decodeDispatch, decodeProtection, u8, u16_bytes16, u16_bytes16_end, u32_bytes32, u48_bytes48_end,
      u64_bytes64, u64_bytes64_end, fin]

end Sys2Proof.Machine
end

section
/-! PROOFS. The clock of a port: a byte clocked in or shifted out, a command bit by bit, and what follows it. -/

-- One proof after another: begun all at once, the proofs of the whole text outgrow the check's memory.
set_option Elab.async false

namespace Sys2Proof.Machine

/-! ### Cycles within a byte -/

/-- The bits of a byte shifted in, the most significant first (R173). -/
def shiftIn (acc : Byte) (bits : List Bool) : Byte := bits.foldl (fun a b => (a <<< 1) ||| (if b then 1#8 else 0#8)) acc

theorem shiftIn_append (acc : Byte) (as bs : List Bool) : shiftIn acc (as ++ bs) = shiftIn (shiftIn acc as) bs :=
  List.foldl_append

theorem getElem_shiftedBit (b : Bool) {i : Nat} (hi : i < 8) : (if b = true then 1#8 else 0#8)[i] = (b && decide (i = 0)) := by
  cases b <;> simp

/-- Eight bits replace whatever stood in the shift register. -/
theorem shiftIn_msbFirst (acc b : Byte) : shiftIn acc (msbFirst b) = b := by
  simp only [shiftIn, msbFirst, List.range_succ, List.range_zero, List.nil_append, List.cons_append, List.map_cons, List.map_nil,
    List.foldl_cons, List.foldl_nil]
  ext i hi
  interval_cases i <;> simp [getElem_shiftedBit]

/-- The record of a port after bits clocked within a byte (R173). -/
def Txn.clocked (x : Txn) (bits : List Bool) : Txn :=
  { x with
    high := false
    bitCount := x.bitCount + bits.length
    shift := if x.listens then shiftIn x.shift bits else x.shift
    out := x.outByte.getLsbD (7 - (x.bitCount + bits.length)) }

/-- A port between two cycles: its clock is low, its bit presented, and no edge is due that takes a command or fixes an
object. -/
structure Txn.Between (x : Txn) : Prop where
  selected : x.phase ≠ .deselected
  low : x.high = false
  presented : x.out = x.outByte.getLsbD (7 - x.bitCount)
  noDelivery : x.atDelivery = false
  noObjectEnd : x.atObjectEnd = false

section
variable {x : Txn}

theorem Txn.clocked_nil (h : x.Between) : x.clocked [] = x := by
  obtain ⟨-, hlow, hpresented, -, -⟩ := h
  simp [Txn.clocked, shiftIn, ← hpresented, ← hlow]

theorem Txn.between_clocked (h : x.Between) (bits : List Bool) : (x.clocked bits).Between :=
  ⟨h.selected, rfl, rfl, h.noDelivery, h.noObjectEnd⟩

theorem Txn.clocked_clocked (as bs : List Bool) : (x.clocked as).clocked bs = x.clocked (as ++ bs) := by
  have hlistens : (x.clocked as).listens = x.listens := rfl
  have hout : (x.clocked as).outByte = x.outByte := rfl
  have hcount : (x.clocked as).bitCount + bs.length = x.bitCount + (as ++ bs).length := by
    rw [List.length_append, ← Nat.add_assoc]
    rfl
  have hshift : (if x.listens then shiftIn (x.clocked as).shift bs else (x.clocked as).shift)
      = if x.listens then shiftIn x.shift (as ++ bs) else x.shift := by
    rw [shiftIn_append, Txn.clocked]
    cases x.listens <;> rfl
  rw [Txn.clocked, hlistens, hout, hcount, hshift]
  rfl

end

theorem State.setTxn_setTxn (s : State) (p : Port) (x y : Txn) : (s.setTxn p x).setTxn p y = s.setTxn p y := by
  cases p <;> rfl

theorem State.setTxn_txn (s : State) (p : Port) : s.setTxn p (s.txn p) = s := by
  cases p <;> rfl

section
variable {s : State} {p : Port} {x : Txn} (hx : s.txn p = x)
include hx

theorem State.dso_of_selected (hs : s.selectLow p = true) (h : x.phase ≠ .deselected) : s.dso p = some x.out := by
  subst hx
  rw [State.dso, hs, if_neg (by decide), if_neg h]

/-- A cycle within a byte. -/
theorem State.sckCycle_within (h : x.Between) (hcount : x.bitCount < 7) (b : Bool) :
    s.sckCycle p b = .next (s.setTxn p (x.clocked [b])) := by
  obtain ⟨y, hy⟩ : ∃ y, y = x.rise p b := ⟨_, rfl⟩
  have hrise := hy.trans (Txn.rise_within h.selected h.low hcount p b)
  have hpresent : y.present = x.clocked [b] := by rw [hrise]; rfl
  have htxn : (s.setTxn p y).txn p = y := State.txn_setTxn_same _ _ _
  rw [State.sckCycle, State.sckRise, hx, ← hy, State.sckFall_present, htxn, State.setTxn_setTxn, hpresent]
  · rw [htxn, hrise]; exact h.selected
  · rw [htxn, hrise]
  · rw [htxn, hrise]; exact h.noDelivery
  · rw [htxn, hrise]; exact h.noObjectEnd

/-- The last cycle of a byte, up to its falling edge. -/
theorem State.sckCycle_eighth (h : x.Between) (hcount : x.bitCount = 7) (b : Bool) :
    s.sckCycle p b = (s.setTxn p (Txn.byteDone p { x with
      high := true, bitCount := 0, shift := if x.listens then shiftIn x.shift [b] else x.shift })).sckFall p := by
  rw [State.sckCycle, State.sckRise, hx, Txn.rise_eighth h.selected h.low hcount]
  rfl

end

section
variable {s t : State} {p : Port} {x : Txn}

/-- Cycles within a byte shift its bits out, the most significant first. -/
theorem clockBits_within {bits : List Bool} (hx : s.txn p = x) (h : x.Between) (hs : s.selectLow p = true)
    (hcount : x.bitCount + bits.length ≤ 7) : clockBits p bits s = some (s.setTxn p (x.clocked bits),
      (List.range bits.length).map fun j => some (x.outByte.getLsbD (7 - (x.bitCount + j)))) := by
  induction bits generalizing s x with
  | nil =>
    rw [clockBits_nil, Txn.clocked_nil h, ← hx, State.setTxn_txn]
    rfl
  | cons b bits ih =>
    rw [List.length_cons] at hcount
    have htxn : (s.setTxn p (x.clocked [b])).txn p = x.clocked [b] := State.txn_setTxn_same _ _ _
    have hbits : (x.clocked [b]).bitCount + bits.length ≤ 7 := by
      rw [Txn.clocked, List.length_singleton]
      dsimp only
      omega
    rw [clockBits_cons (State.sckCycle_within hx h (by omega) b),
      ih htxn (Txn.between_clocked h _) ((s.selectLow_setTxn _ _ _).trans hs) hbits, State.setTxn_setTxn, Txn.clocked_clocked,
      State.dso_of_selected hx hs h.selected, h.presented, List.length_cons, List.range_succ_eq_map, List.map_cons, List.map_map,
      Option.map_some]
    refine congrArg some (Prod.ext rfl ?_)
    refine congrArg (List.cons _) (List.map_congr_left fun j _ => ?_)
    have hj : x.bitCount + [b].length + j = x.bitCount + (j + 1) := by rw [List.length_singleton]; omega
    exact congrArg (fun n => some (x.outByte.getLsbD (7 - n))) hj

/-- The record of a port whose byte has been clocked in whole, before the port acts on it. -/
def Txn.filled (x : Txn) (bits : List Bool) : Txn :=
  { x with
    high := true
    bitCount := 0
    shift := if x.listens then shiftIn x.shift bits else x.shift
    out := x.outByte.getLsbD 0 }

theorem Txn.filled_concat (x : Txn) (bits : List Bool) (b : Bool) (hlen : x.bitCount + bits.length = 7) :
    ({ x.clocked bits with
      high := true, bitCount := 0
      shift := if (x.clocked bits).listens then shiftIn (x.clocked bits).shift [b] else (x.clocked bits).shift } : Txn)
      = x.filled (bits ++ [b]) := by
  have hlistens : (x.clocked bits).listens = x.listens := rfl
  rw [hlistens, Txn.filled, Txn.clocked, shiftIn_append, hlen]
  cases x.listens <;> rfl

theorem msbFirst_map_some (b : Byte) :
    (msbFirst b).map some = (List.range 7).map (fun j => some (b.getLsbD (7 - j))) ++ [some (b.getLsbD 0)] := rfl

/-- Eight cycles of a port that stands at the start of a byte: the byte it holds is shifted out, and the falling edge after the
last one decides the state. -/
theorem clockBits_byte {bits : List Bool} (hx : s.txn p = x) (h : x.Between) (hs : s.selectLow p = true)
    (hcount : x.bitCount = 0) (hlen : bits.length = 8)
    (hfall : (s.setTxn p (Txn.byteDone p (x.filled bits))).sckFall p = .next t) :
    clockBits p bits s = some (t, (msbFirst x.outByte).map some) := by
  obtain ⟨init, b, rfl⟩ : ∃ init b, bits = init ++ [b] :=
    ⟨_, _, (List.dropLast_append_getLast (List.ne_nil_of_length_pos (by omega))).symm⟩
  have hinit : init.length = 7 := by rwa [List.length_append, List.length_singleton, Nat.add_right_cancel_iff] at hlen
  have htotal : x.bitCount + init.length = 7 := by omega
  have htxn : (s.setTxn p (x.clocked init)).txn p = x.clocked init := State.txn_setTxn_same _ _ _
  have hsel : (s.setTxn p (x.clocked init)).selectLow p = true := (State.selectLow_setTxn _ _ _ _).trans hs
  have hbetween := Txn.between_clocked h init
  have hlast := State.sckCycle_eighth htxn hbetween htotal b
  rw [State.setTxn_setTxn, Txn.filled_concat x init b htotal, hfall] at hlast
  have hbit : (x.clocked init).bitCount = 7 := htotal
  have hdso : (s.setTxn p (x.clocked init)).dso p = some (x.outByte.getLsbD 0) := by
    rw [State.dso_of_selected htxn hsel hbetween.selected, hbetween.presented, hbit]
    rfl
  rw [clockBits_append (clockBits_within hx h hs (Nat.le_of_eq htotal)), clockBits_cons hlast, clockBits_nil, hdso, hinit, hcount,
    msbFirst_map_some]
  simp only [Nat.zero_add]
  rfl

end

/-! ### A command bit by bit -/

/-- A port command travels with the operand bytes its port expects after its code, or with none after a code that names no
command. -/
theorem operandLength_wire {c : Instr} {w : WireCmd} (hw : wire c = some w) (hc : c.wellFormed = true) :
    (operandLength w.port w.code).getD 0 = w.operands.length := by
  cases c with
  | unknownCommand p b =>
    have hnone : operandLength p b = none := beq_iff_eq.1 hc
    cases hw
    exact congrArg (Option.getD · 0) hnone
  | setMask p m | ackEvents p m | readZone p z | readStatus p =>
    cases p <;> cases hw <;> rfl
  | transactionDiscard | readObjectFix | pinReset | epochExpiry | sweepVisit | sweepComplete | solve | solveBegun
  | releaseTimerExpiry | nextItemTaken | frameSent | receptionComplete | receptionBroken | replyTimeout | segmentLocked
  | quietExpiry | shadowSensorChange | shadowOnset | shadowEnd | sensorStuck | stowLineChange | stowLineQualified
  | deadlineExpiry | supervisionExpired | receptionBegins | lineFallsIdle | rxLineActive | transactionBegin
  | transactionEnd => cases hw
  | _ =>
    cases hw
    rfl

/-- The record of a port that has received the command byte and some operand bytes of a command. -/
def Txn.taking (w : WireCmd) (taken : List Byte) : Txn :=
  { Txn.reset with
    phase := if taken.length < w.operands.length then .operands else .completion
    command := some w.code
    operands := taken }

section
variable {c : Instr} {w : WireCmd} (hw : wire c = some w) (hc : c.wellFormed = true)
include hw hc

/-- At its delivery edge a command is what it is where its transaction begins. -/
theorem exec_received {s : State} (hr : s.txn w.port = { Txn.reset with phase := .command }) :
    ∃ t, exec c (s.setTxn w.port (Txn.received w)) = .next t ∧ exec c s = .next t := by
  obtain ⟨act, first, hexec, hfirst⟩ := exec_eq_deliverWith hw hc
  have haccepts : s.accepts c = true := by
    rw [State.accepts, hw]
    dsimp only
    rw [hr]
    rfl
  have hreceived : (s.setTxn w.port (Txn.received w)).accepts c = true := by
    rw [State.accepts, hw]
    dsimp only
    rw [State.txn_setTxn_same]
    simp [Txn.ready, Txn.received, Txn.reset]
  refine ⟨_, ?_, hexec s⟩
  rw [hexec, hfirst, deliverWith_ready hw _ _ haccepts, deliverWith_ready hw _ _ hreceived, State.setTxn_setTxn]

end

/-- A record whose command byte and operand bytes so far have just been received, its clock high. -/
def Txn.held (x : Txn) : Txn := { x with high := true }

section
variable {w : WireCmd} {taken : List Byte}

theorem Txn.taking_phase (h : taken.length < w.operands.length) : (Txn.taking w taken).phase = .operands := if_pos h

theorem Txn.outByte_of_operands {x : Txn} (h : x.phase = .operands) : x.outByte = 0xFF := by rw [Txn.outByte, h]

theorem Txn.between_of_operands {x : Txn} (h : x.phase = .operands) (hhigh : x.high = false) (hout : x.out = true)
    (hcount : x.bitCount = 0) : x.Between where
  selected := by rw [h]; exact TPhase.noConfusion
  low := hhigh
  presented := by rw [hout, Txn.outByte_of_operands h, hcount]; rfl
  noDelivery := by rw [Txn.atDelivery, h]; rfl
  noObjectEnd := by rw [Txn.atObjectEnd, h]; rfl

theorem Txn.held_taking_all (w : WireCmd) : (Txn.taking w w.operands).held = Txn.received w := by
  rw [Txn.held, Txn.taking, if_neg (Nat.lt_irrefl _)]
  rfl

/-- The falling edge after a byte that is not the command's last presents the next bit. -/
theorem sckFall_taking {s : State} {p : Port} (h : taken.length < w.operands.length) :
    (s.setTxn p (Txn.taking w taken).held).sckFall p = .next (s.setTxn p (Txn.taking w taken)) := by
  have hphase : (Txn.taking w taken).held.phase = .operands := Txn.taking_phase h
  have hpresent : (Txn.taking w taken).held.present = Txn.taking w taken := by
    have hcount : (Txn.taking w taken).held.bitCount = 0 := rfl
    have hbit : (0xFF : Byte).getLsbD (7 - 0) = true := rfl
    rw [Txn.present, Txn.outByte_of_operands hphase, hcount, hbit]
    rfl
  have htxn : (s.setTxn p (Txn.taking w taken).held).txn p = (Txn.taking w taken).held := State.txn_setTxn_same _ _ _
  rw [State.sckFall_present, htxn, hpresent, State.setTxn_setTxn]
  · rw [htxn, hphase]; exact TPhase.noConfusion
  · rw [htxn]; rfl
  · rw [htxn, Txn.atDelivery, hphase]; rfl
  · rw [htxn, Txn.atObjectEnd, hphase]; rfl

theorem Txn.byteDone_operands {x : Txn} {p : Port} (h : x.phase = .operands) : Txn.byteDone p x = { x with
    phase := if x.operands.length + 1 < ((x.command.bind (operandLength p)).getD 0) then .operands else .completion
    operands := x.operands ++ [x.shift]
    shift := 0 } := by
  rw [Txn.byteDone, h]

/-- An operand byte received whole is appended. -/
theorem byteDone_taking {p : Port} {b : Byte} (hlength : (operandLength p w.code).getD 0 = w.operands.length)
    (h : taken.length < w.operands.length) :
    Txn.byteDone p ((Txn.taking w taken).filled (msbFirst b)) = (Txn.taking w (taken ++ [b])).held := by
  have hphase := Txn.taking_phase h
  have hlistens : (Txn.taking w taken).listens = true := by rw [Txn.listens, hphase]; rfl
  have hfilled : (Txn.taking w taken).filled (msbFirst b) = { (Txn.taking w taken).held with shift := b } := by
    rw [Txn.filled, hlistens, if_pos rfl, shiftIn_msbFirst, Txn.outByte_of_operands hphase]
    rfl
  have hcommand : ((some w.code).bind (operandLength p)).getD 0 = w.operands.length := hlength
  have hheld : ({ (Txn.taking w taken).held with shift := b } : Txn).phase = .operands := hphase
  have hnext : (if taken.length + 1 < ((some w.code).bind (operandLength p)).getD 0 then TPhase.operands else .completion)
      = if (taken ++ [b]).length < w.operands.length then .operands else .completion := by
    rw [hcommand, List.length_append, List.length_singleton]
  rw [hfilled, Txn.byteDone_operands hheld]
  exact (congrArg (fun f => ({ (Txn.taking w (taken ++ [b])).held with phase := f } : Txn)) hnext :)

end

theorem msbFirst_ones : (msbFirst 0xFF).map some = List.replicate 8 (some true) := by decide

section
variable {c : Instr} {w : WireCmd} (hw : wire c = some w) (hc : c.wellFormed = true) {s : State}
  (hs : s.selectLow w.port = true) (hr : s.txn w.port = { Txn.reset with phase := .command })
include hw hc hs hr

/-- From the last rising edge of a byte on: the bytes that are left are clocked in, and the command's delivery follows. -/
theorem clock_operands (rest taken : List Byte) (hsplit : w.operands = taken ++ rest) :
    ∃ u t, (s.setTxn w.port (Txn.taking w taken).held).sckFall w.port = .next u ∧ exec c s = .next t
      ∧ clockBits w.port (rest.flatMap msbFirst) u = some (t, List.replicate (8 * rest.length) (some true)) := by
  induction rest generalizing taken with
  | nil =>
    obtain rfl : w.operands = taken := by rw [hsplit, List.append_nil]
    obtain ⟨t, hreceived, hexec⟩ := exec_received hw hc hr
    have htxn : (s.setTxn w.port (Txn.received w)).txn w.port = Txn.received w := State.txn_setTxn_same _ _ _
    refine ⟨t, t, ?_, hexec, rfl⟩
    rw [Txn.held_taking_all, ← hreceived]
    refine State.sckFall_delivery (by rw [htxn]; rfl) (by rw [htxn]; rfl) ?_
    rw [htxn]
    exact decodeWire_wire hw hc
  | cons b rest ih =>
    have hmore : taken.length < w.operands.length := by rw [hsplit, List.length_append, List.length_cons]; omega
    have hphase := Txn.taking_phase hmore
    obtain ⟨u, t, hfall, hexec, hbits⟩ := ih (taken ++ [b]) (by rw [hsplit, List.append_assoc]; rfl)
    have htxn : (s.setTxn w.port (Txn.taking w taken)).txn w.port = Txn.taking w taken := State.txn_setTxn_same _ _ _
    have hbyte := clockBits_byte (bits := msbFirst b) (t := u) htxn (Txn.between_of_operands hphase rfl rfl rfl)
      ((State.selectLow_setTxn _ _ _ _).trans hs) rfl rfl (by
        rw [State.setTxn_setTxn, byteDone_taking (operandLength_wire hw hc) hmore]
        exact hfall)
    refine ⟨_, t, sckFall_taking hmore, hexec, ?_⟩
    rw [List.flatMap_cons, clockBits_append hbyte, hbits, Txn.outByte_of_operands hphase, msbFirst_ones, List.length_cons,
      Option.map_some, List.replicate_append_replicate, Nat.mul_succ, Nat.add_comm]

/-- The bytes of a command, clocked in bit by bit, are that command (R173 to R175). -/
theorem clock_command : ∃ t, exec c s = .next t
    ∧ clockBits w.port ((w.code :: w.operands).flatMap msbFirst) s
        = some (t, List.replicate (8 * (1 + w.operands.length)) (some true)) := by
  obtain ⟨u, t, hfall, hexec, hbits⟩ := clock_operands hw hc hs hr w.operands [] rfl
  have hbetween : ({ Txn.reset with phase := .command } : Txn).Between := ⟨TPhase.noConfusion, rfl, rfl, rfl, rfl⟩
  have hdone : Txn.byteDone w.port (({ Txn.reset with phase := .command } : Txn).filled (msbFirst w.code)) = (Txn.taking w []).held := by
    have hfilled : ({ Txn.reset with phase := .command } : Txn).filled (msbFirst w.code)
        = { Txn.reset with phase := .command, high := true, shift := w.code } := by
      have hshift : shiftIn 0 (msbFirst w.code) = w.code := shiftIn_msbFirst _ _
      exact congrArg (fun b => ({ Txn.reset with phase := .command, high := true, shift := b } : Txn)) hshift
    have hnext : (if 0 < (operandLength w.port w.code).getD 0 then TPhase.operands else .completion)
        = if 0 < w.operands.length then .operands else .completion := by rw [operandLength_wire hw hc]
    rw [hfilled]
    exact congrArg (fun f => ({ (Txn.taking w []).held with phase := f } : Txn)) hnext
  have hbyte := clockBits_byte (bits := msbFirst w.code) (t := u) hr hbetween hs rfl rfl (by rw [hdone]; exact hfall)
  refine ⟨t, hexec, ?_⟩
  rw [List.flatMap_cons, clockBits_append hbyte, hbits, Option.map_some, Nat.mul_add, ← List.replicate_append_replicate]
  exact congrArg (fun l => some (t, l ++ _)) msbFirst_ones

end

end Sys2Proof.Machine
end

section
/-! PROOFS. The bytes a port shifts out, and what follows them. -/

-- One proof after another: begun all at once, the proofs of the whole text outgrow the check's memory.
set_option Elab.async false

namespace Sys2Proof.Machine

/-! ### A byte shifted out -/

/-- A port that has a byte to shift out: the completion code, a byte of an object, or fill. -/
def Txn.Holds (x : Txn) : Prop :=
  (x.phase = .completion ∧ x.completion.isSome ∧ x.position = 0)
    ∨ (x.phase = .data ∧ x.completion.isSome ∧ x.position < x.object.length) ∨ x.phase = .fill

/-- A port at the start of a byte: its clock is low and the first bit is presented. -/
structure Txn.AtByte (x : Txn) : Prop where
  count : x.bitCount = 0
  low : x.high = false
  presented : x.out = x.outByte.getLsbD 7

section
variable {x : Txn}

theorem Txn.atByte_present (h : x.bitCount = 0) : x.present.AtByte where
  count := h
  low := rfl
  presented := by
    have hbyte : x.present.outByte = x.outByte := rfl
    rw [hbyte, Txn.present, h]

theorem Txn.Holds.between (h : x.Holds) (hbyte : x.AtByte) : x.Between := by
  obtain ⟨hcount, hhigh, hout⟩ := hbyte
  have hpresented : x.out = x.outByte.getLsbD (7 - x.bitCount) := by rw [hout, hcount]
  rcases h with ⟨hphase, hcompletion, -⟩ | ⟨hphase, -, hposition⟩ | hphase
  · refine ⟨by rw [hphase]; exact TPhase.noConfusion, hhigh, hpresented, ?_, by rw [Txn.atObjectEnd, hphase]; rfl⟩
    rw [Txn.atDelivery, Option.isNone_eq_false_iff.2 hcompletion, Bool.and_false]
  · refine ⟨by rw [hphase]; exact TPhase.noConfusion, hhigh, hpresented, by rw [Txn.atDelivery, hphase]; rfl, ?_⟩
    rw [Txn.atObjectEnd, beq_eq_false_iff_ne.2 (Nat.ne_of_lt hposition), Bool.and_false]
  · exact ⟨by rw [hphase]; exact TPhase.noConfusion, hhigh, hpresented, by rw [Txn.atDelivery, hphase]; rfl,
      by rw [Txn.atObjectEnd, hphase]; rfl⟩

/-- The record after the eighth rising edge of a byte shifted out, before the port acts on it. -/
def Txn.emptied (x : Txn) : Txn := { x with high := true, bitCount := 0, out := x.outByte.getLsbD 0 }

theorem Txn.Holds.filled (h : x.Holds) (bits : List Bool) : x.filled bits = x.emptied := by
  have hlistens : x.listens = false := by
    rcases h with ⟨hphase, -⟩ | ⟨hphase, -⟩ | hphase <;> (rw [Txn.listens, hphase]; rfl)
  rw [Txn.filled, hlistens]
  rfl

end

section
variable {s : State} {p : Port} {x y : Txn} {bits : List Bool}

/-- Where the falling edge after a byte fixes nothing, the first bit of the next byte is presented, and nothing else changes. -/
theorem sckFall_present_setTxn (hphase : y.phase ≠ .deselected) (hhigh : y.high = true) (hd : y.atDelivery = false)
    (ho : y.atObjectEnd = false) : (s.setTxn p y).sckFall p = .next (s.setTxn p y.present) := by
  have htxn : (s.setTxn p y).txn p = y := State.txn_setTxn_same _ _ _
  rw [State.sckFall_present, htxn, State.setTxn_setTxn]
  · rwa [htxn]
  · rwa [htxn]
  · rwa [htxn]
  · rwa [htxn]

/-- The falling edge after an object's last bit, where the read goes on: the next object is fixed. -/
theorem sckFall_object {c : Cursor} (hphase : y.phase = .data) (hhigh : y.high = true) (hcompletion : y.completion.isSome = true)
    (hend : y.position = y.object.length) (hcursor : y.cursor = some c) : (s.setTxn p y).sckFall p
      = .next (({ s with draws := s.draws + 1 } : State).setTxn p { y with
          phase := .data, bitCount := 0, cursor := c.next, object := ({ s with draws := s.draws + 1 } : State).objectAt c,
          position := 0 }.present) := by
  have htxn : (s.setTxn p y).txn p = y := State.txn_setTxn_same _ _ _
  have hdelivery : y.atDelivery = false := by rw [Txn.atDelivery, hphase]; rfl
  have hobject : y.atObjectEnd = true := by rw [Txn.atObjectEnd, hphase, hend]; exact beq_self_eq_true _
  have hopen : ¬ (y.phase = .deselected ∨ y.high = false) := by rw [hphase, hhigh]; simp
  have hfix : y.completion.isSome = true ∧ (y.phase = .completion ∨ y.phase = .data) := ⟨hcompletion, .inr hphase⟩
  rw [State.sckFall]
  rw [htxn, if_neg hopen, hdelivery, hobject, if_neg Bool.false_ne_true, if_pos rfl, State.fixObject]
  rw [htxn, if_pos hfix, hcursor]
  have hdraw : ({ s.setTxn p y with draws := (s.setTxn p y).draws + 1 } : State)
      = ({ s with draws := s.draws + 1 } : State).setTxn p y := by cases p <;> rfl
  dsimp only
  rw [hdraw, State.setTxn_setTxn, State.objectAt_setTxn]

end

/-- What stands of the part besides a port's record and the count of draws. -/
def OtherwiseSame (s t : State) (p : Port) : Prop :=
  t.txn (otherPort p) = s.txn (otherPort p) ∧ { t with dpt := s.dpt, ppt := s.ppt, draws := s.draws } = s

theorem otherwiseSame_setTxn (s : State) (p : Port) (x : Txn) : OtherwiseSame s (s.setTxn p x) p := by
  cases p <;> exact ⟨rfl, rfl⟩

/-- What the fixing of an object leaves (R183). -/
theorem objectFixed (s : State) (p : Port) (y : Txn) (c : Cursor) {t : State}
    (ht : t = ({ s with draws := s.draws + 1 } : State).setTxn p { y with
      phase := .data, bitCount := 0, cursor := c.next, object := ({ s with draws := s.draws + 1 } : State).objectAt c,
      position := 0 }.present) :
    ((t.txn p).position = 0 ∧ (t.txn p).phase = .data ∧ (t.txn p).object = t.objectAt c ∧ (t.txn p).cursor = c.next)
      ∧ (t.txn p).AtByte ∧ OtherwiseSame s t p := by
  obtain ⟨z, hz⟩ : ∃ z : Txn, z = { y with
      phase := .data, bitCount := 0, cursor := c.next, object := ({ s with draws := s.draws + 1 } : State).objectAt c,
      position := 0 } := ⟨_, rfl⟩
  rw [← hz] at ht
  obtain ⟨htxn, hother, hrest⟩ := s.setTxn_of_draws p z.present (s.draws + 1)
  have hobject := State.objectAt_setTxn { s with draws := s.draws + 1 } p z.present c
  rw [← ht] at htxn hother hrest hobject
  rw [htxn, hobject]
  refine ⟨?_, Txn.atByte_present (by rw [hz]), hother, hrest⟩
  rw [hz]
  exact ⟨rfl, rfl, rfl, rfl⟩

section
variable {x : Txn} {p : Port}

theorem Txn.byteDone_completion (h : x.phase = .completion) :
    Txn.byteDone p x = { x with phase := if x.object.isEmpty then .fill else .data } := by
  rw [Txn.byteDone, h]

theorem Txn.byteDone_data (h : x.phase = .data) : Txn.byteDone p x =
    if x.position + 1 < x.object.length ∨ x.cursor.isSome = true then { x with position := x.position + 1 }
    else { x with phase := .fill, object := [], position := 0 } := by
  rw [Txn.byteDone, h]

theorem Txn.byteDone_fill (h : x.phase = .fill) : Txn.byteDone p x = x := by
  rw [Txn.byteDone, h]

end

section
variable {s : State} {p : Port} {x : Txn} {bits : List Bool} (hx : s.txn p = x) (hlen : bits.length = 8) (hs : s.selectLow p = true)
  (hbyte : x.AtByte)
include hx hlen hs hbyte

/-- The byte a port holds is shifted out, whatever the master sends; the falling edge after it decides the rest. -/
theorem clockBits_holds (hholds : x.Holds) {t : State} (hfall : (s.setTxn p (Txn.byteDone p x.emptied)).sckFall p = .next t) :
    clockBits p bits s = some (t, (msbFirst x.outByte).map some) := by
  refine clockBits_byte hx (hholds.between hbyte) hs hbyte.count hlen ?_
  rwa [hholds.filled]

/-- A byte after which no object is fixed. -/
theorem clockBits_presents (hholds : x.Holds) {y : Txn} (hy : Txn.byteDone p x.emptied = y)
    (hd : y.atDelivery = false) (ho : y.atObjectEnd = false) (hphase : y.phase ≠ .deselected) (hhigh : y.high = true)
    (hcount : y.bitCount = 0) : ∃ t, clockBits p bits s = some (t, (msbFirst x.outByte).map some) ∧ t.txn p = y.present
      ∧ (t.txn p).AtByte ∧ OtherwiseSame s t p := by
  refine ⟨s.setTxn p y.present,
    clockBits_holds hx hlen hs hbyte hholds (by rw [hy]; exact sckFall_present_setTxn hphase hhigh hd ho),
    State.txn_setTxn_same _ _ _, ?_, otherwiseSame_setTxn _ _ _⟩
  rw [State.txn_setTxn_same]
  exact Txn.atByte_present hcount

/-- The completion code is followed by the object of a taken read, or by fill (R175, R177). -/
theorem clockBits_completion (hphase : x.phase = .completion) (hcompletion : x.completion.isSome = true) (hposition : x.position = 0) :
    ∃ t, clockBits p bits s = some (t, (msbFirst x.outByte).map some)
      ∧ ((t.txn p).object = x.object ∧ (t.txn p).phase = if x.object = [] then .fill else .data)
      ∧ (t.txn p).AtByte ∧ OtherwiseSame s t p := by
  obtain ⟨y, hy⟩ : ∃ y, y = Txn.byteDone p x.emptied := ⟨_, rfl⟩
  have hdone := hy.trans (Txn.byteDone_completion (x := x.emptied) hphase)
  have hyphase : y.phase = if x.object = [] then .fill else .data := by
    rw [hdone]
    exact if_congr List.isEmpty_iff rfl rfl
  have hdelivery : y.atDelivery = false := by
    rw [Txn.atDelivery, hyphase]
    split <;> rfl
  have hend : y.atObjectEnd = false := by
    have hyobject : y.object = x.object := by rw [hdone]; rfl
    have hyposition : y.position = 0 := by rw [hdone]; exact hposition
    rw [Txn.atObjectEnd, hyphase, hyobject, hyposition]
    cases x.object <;> rfl
  have hopen : y.phase ≠ .deselected := by
    rw [hyphase]
    split <;> exact TPhase.noConfusion
  obtain ⟨t, hbits, htxn, hatByte, hrest⟩ := clockBits_presents hx hlen hs hbyte (.inl ⟨hphase, hcompletion, hposition⟩) hy.symm
    hdelivery hend hopen (by rw [hdone]; rfl) (by rw [hdone]; rfl)
  refine ⟨t, hbits, ⟨?_, ?_⟩, hatByte, hrest⟩
  · rw [htxn, hdone]; rfl
  · rw [htxn]; exact hyphase

/-- In fill 0xFF is followed by 0xFF (R177). -/
theorem clockBits_fill (hphase : x.phase = .fill) : ∃ t, clockBits p bits s = some (t, (msbFirst x.outByte).map some)
    ∧ (t.txn p).phase = .fill ∧ (t.txn p).AtByte ∧ OtherwiseSame s t p := by
  have hdone : Txn.byteDone p x.emptied = x.emptied := Txn.byteDone_fill hphase
  have hopen : x.emptied.phase = .fill := hphase
  obtain ⟨t, hbits, htxn, hatByte, hrest⟩ := clockBits_presents hx hlen hs hbyte (.inr (.inr hphase)) hdone
    (by rw [Txn.atDelivery, hopen]; rfl) (by rw [Txn.atObjectEnd, hopen]; rfl) (by rw [hopen]; exact TPhase.noConfusion) rfl rfl
  exact ⟨t, hbits, by rw [htxn]; exact hphase, hatByte, hrest⟩

/-- Within an object its next byte follows (R177). -/
theorem clockBits_object (hphase : x.phase = .data) (hcompletion : x.completion.isSome = true)
    (hmore : x.position + 1 < x.object.length) : ∃ t, clockBits p bits s = some (t, (msbFirst x.outByte).map some)
      ∧ ((t.txn p).phase = .data ∧ (t.txn p).object = x.object ∧ (t.txn p).position = x.position + 1)
      ∧ (t.txn p).AtByte ∧ OtherwiseSame s t p := by
  have hdone : Txn.byteDone p x.emptied = { x.emptied with position := x.position + 1 } :=
    (Txn.byteDone_data (x := x.emptied) hphase).trans (if_pos (.inl hmore))
  obtain ⟨y, hy⟩ : ∃ y : Txn, y = { x.emptied with position := x.position + 1 } := ⟨_, rfl⟩
  have hyphase : y.phase = .data := by rw [hy]; exact hphase
  have hend : y.atObjectEnd = false := by
    have hposition : (y.position == y.object.length) = false := by rw [hy]; exact beq_eq_false_iff_ne.2 (Nat.ne_of_lt hmore)
    rw [Txn.atObjectEnd, hposition, Bool.and_false]
  obtain ⟨t, hbits, htxn, hatByte, hrest⟩ := clockBits_presents hx hlen hs hbyte
    (.inr (.inl ⟨hphase, hcompletion, Nat.lt_of_succ_lt hmore⟩)) (hdone.trans hy.symm) (by rw [Txn.atDelivery, hyphase]; rfl) hend
    (by rw [hyphase]; exact TPhase.noConfusion) (by rw [hy]; rfl) (by rw [hy]; rfl)
  refine ⟨t, hbits, ?_, hatByte, hrest⟩
  rw [htxn, hy]
  exact ⟨hphase, rfl, rfl⟩

/-- The last byte of an object is followed by the next object of the read, or by fill (R183, R177). -/
theorem clockBits_objectEnd (hphase : x.phase = .data) (hcompletion : x.completion.isSome = true)
    (hlast : x.position + 1 = x.object.length) : ∃ t, clockBits p bits s = some (t, (msbFirst x.outByte).map some)
      ∧ ((t.txn p).position = 0 ∧ match x.cursor with
          | some c => (t.txn p).phase = .data ∧ (t.txn p).object = t.objectAt c ∧ (t.txn p).cursor = c.next
          | none => (t.txn p).phase = .fill ∧ (t.txn p).object = [])
      ∧ (t.txn p).AtByte ∧ OtherwiseSame s t p := by
  have hholds : x.Holds := .inr (.inl ⟨hphase, hcompletion, by omega⟩)
  have hdone := Txn.byteDone_data (x := x.emptied) (p := p) hphase
  cases hcursor : x.cursor with
  | none =>
    have hfill : Txn.byteDone p x.emptied = { x.emptied with phase := .fill, object := [], position := 0 } := by
      refine hdone.trans (if_neg ?_)
      rintro (hmore | hsome)
      · exact absurd hlast (Nat.ne_of_lt hmore)
      · exact absurd (hcursor ▸ hsome : (none : Option Cursor).isSome = true) Bool.false_ne_true
    obtain ⟨t, hbits, htxn, hatByte, hrest⟩ := clockBits_presents hx hlen hs hbyte hholds hfill rfl rfl TPhase.noConfusion rfl rfl
    exact ⟨t, hbits, by rw [htxn]; exact ⟨rfl, rfl, rfl⟩, hatByte, hrest⟩
  | some c =>
    have hnext : Txn.byteDone p x.emptied = { x.emptied with position := x.position + 1 } := by
      refine hdone.trans (if_pos (.inr ?_))
      exact (congrArg Option.isSome hcursor :)
    have hfall := sckFall_object (s := s) (p := p) (y := { x.emptied with position := x.position + 1 }) (c := c) hphase rfl hcompletion
      hlast hcursor
    rw [← hnext] at hfall
    refine ⟨_, clockBits_holds hx hlen hs hbyte hholds hfall, ?_⟩
    exact objectFixed s p _ c rfl

end

/-- Settles O53: the bytes read back, the command bit by bit, and each byte a port holds. -/
theorem wireRoundTrip : Obligations.WireRoundTrip := by
  unfold Obligations.WireRoundTrip
  refine ⟨fun c w => decodeWire_wire, fun s c w hw hc hs hr => clock_command hw hc hs hr,
    fun s p bits x hx hlen hs hcount hhigh hout hholds => ?_, fun s p b hphase => ?_⟩
  · have hbyte : x.AtByte := ⟨hcount, hhigh, hout⟩
    have hnot {f g : TPhase} (h : x.phase = f) (hne : f ≠ g) (h' : x.phase = g) : False := hne (h.symm.trans h')
    rcases hholds with ⟨hphase, hcompletion, hposition⟩ | ⟨hphase, hcompletion, hposition⟩ | hphase
    · obtain ⟨t, hbits, hnext, ⟨hcount', hhigh', hout'⟩, htxn, hrest⟩ :=
        clockBits_completion hx.symm hlen hs hbyte hphase hcompletion hposition
      have hshifted : x.outByte = (x.completion.map Code.byte).getD 0xFF := by rw [Txn.outByte, hphase]
      exact ⟨t, hbits, fun _ => ⟨hshifted, hnext⟩, fun h => (hnot hphase TPhase.noConfusion h).elim,
        fun h => (hnot hphase TPhase.noConfusion h).elim,
          hcount', hhigh', hout', htxn, hrest⟩
    · have hshifted : x.outByte = x.object.getD x.position 0xFF := by rw [Txn.outByte, hphase]
      by_cases hmore : x.position + 1 < x.object.length
      · obtain ⟨t, hbits, hnext, ⟨hcount', hhigh', hout'⟩, htxn, hrest⟩ :=
          clockBits_object hx.symm hlen hs hbyte hphase hcompletion hmore
        exact ⟨t, hbits, fun h => (hnot hphase TPhase.noConfusion h).elim,
          fun _ => ⟨hshifted, fun _ => hnext, fun h => absurd hmore h.not_gt⟩, fun h => (hnot hphase TPhase.noConfusion h).elim,
          hcount', hhigh', hout', htxn, hrest⟩
      · obtain ⟨t, hbits, hnext, ⟨hcount', hhigh', hout'⟩, htxn, hrest⟩ :=
          clockBits_objectEnd hx.symm hlen hs hbyte hphase hcompletion (by omega)
        exact ⟨t, hbits, fun h => (hnot hphase TPhase.noConfusion h).elim,
          fun _ => ⟨hshifted, fun h => absurd h hmore, fun _ => hnext⟩, fun h => (hnot hphase TPhase.noConfusion h).elim,
          hcount', hhigh', hout', htxn, hrest⟩
    · obtain ⟨t, hbits, hnext, ⟨hcount', hhigh', hout'⟩, htxn, hrest⟩ := clockBits_fill hx.symm hlen hs hbyte hphase
      have hshifted : x.outByte = 0xFF := by rw [Txn.outByte, hphase]
      exact ⟨t, hbits, fun h => (hnot hphase TPhase.noConfusion h).elim, fun h => (hnot hphase TPhase.noConfusion h).elim,
        fun _ => ⟨hshifted, hnext⟩, hcount', hhigh', hout', htxn, hrest⟩
  · rw [State.sckCycle_deselected hphase, State.setTxn_txn]

end Sys2Proof.Machine
end
